-- ==== Sys2Proof/Word.lean ====
section
/-! DEFINITION. The three widths of the block (R7, R45, R46; decision D4): a byte of the link, a
16-bit rate or counter, a 32-bit position. Signed quantities are two's complement and are read with
`BitVec.toInt` or compared with `BitVec.slt` (general knowledge G1 of the spec). -/

namespace Sys2Proof

/-- `uint8`: a byte of the payload or of the response, an axis bitmask, a command id. -/
abbrev Byte := BitVec 8

/-- `uint16` or `int16`: a rate, the tick counter, one channel of the inertial sensor. -/
abbrev Half := BitVec 16

/-- `int32`, two's complement: a step position or a target. -/
abbrev Word := BitVec 32

end Sys2Proof
end

