-- ==== Sys2Proof/Syntax.lean ====
section
/-! DEFINITION. The instruction set of the block: the nine host commands of the command table (R62),
in table order, each with the fields its format carries (R64). -/

namespace Sys2Proof

/-- One decoded command. Fields hold the link's bits unreduced: `mask` keeps its ignored bits 7:3
(R66) and `direction` is the raw byte (R67), so that no bit of an encoding is lost. -/
inductive Instr where
  /-- `SET_TARGET_FREQ`, format MHB (R111). -/
  | setTargetFreq (mask : Byte) (freq : Half) (direction : Byte)
  /-- `SET_TARGET_DELTA`, format MHW (R112). -/
  | setTargetDelta (mask : Byte) (freq : Half) (target : Word)
  /-- `GET_DELTA_STEPS`, format M (R120). -/
  | getDeltaSteps (mask : Byte)
  /-- `GET_IMU_MEASUREMENT`, format Z (R122). -/
  | getImuMeasurement
  /-- `SET_ISR_FREQ`, format H (R130). -/
  | setIsrFreq (freq : Half)
  /-- `ENABLE_CNC`, format Z (R131). -/
  | enableCnc
  /-- `DISABLE_CNC`, format Z (R132). -/
  | disableCnc
  /-- `SET_DELTA_STEPS`, format MW (R113). -/
  | setDeltaSteps (mask : Byte) (value : Word)
  /-- `GET_ISR_FREQ`, format Z (R121). -/
  | getIsrFreq
deriving DecidableEq, Repr

end Sys2Proof
end

