-- ==== Sys2Proof/Config.lean ====
section
/-! DEFINITION. What an implementation fixes and what the spec leaves open. The OPEN parameters of R5
are the structure `Params`, plain data that `Machine.State` carries and no step writes, so that a
statement over every state is a statement over every value of every parameter; `Params.reference`
is the spec's reference instance. The free values (`draw T` of R7) are constants with no body. -/

namespace Sys2Proof

/-! ## Names and vectors the parameters are made of -/

/-- The three axes (R10): X, Y, Z are indices 0, 1, 2. -/
inductive Axis where
  | x | y | z
deriving DecidableEq, Repr, Inhabited

/-- The index of an axis (R10). -/
def Axis.index : Axis → Nat
  | .x => 0
  | .y => 1
  | .z => 2

/-- Every axis in the fixed order X, Y, Z (R66, R100). -/
def Axis.all : List Axis := [.x, .y, .z]

/-- One value for each axis: the shape of the register file `ax[0..2]` and of `dir_out[0..2]`. -/
structure PerAxis (α : Type) where
  x : α
  y : α
  z : α
deriving DecidableEq, Repr, Inhabited

/-- The value at an axis. -/
def PerAxis.get {α : Type} (v : PerAxis α) : Axis → α
  | .x => v.x
  | .y => v.y
  | .z => v.z

/-- The vector with one axis's value replaced. -/
def PerAxis.set {α : Type} (v : PerAxis α) (a : Axis) (e : α) : PerAxis α :=
  match a with
  | .x => { v with x := e }
  | .y => { v with y := e }
  | .z => { v with z := e }

/-- The vector a function of the axis gives. -/
def PerAxis.ofFn {α : Type} (f : Axis → α) : PerAxis α := ⟨f .x, f .y, f .z⟩

/-- The nine channels of the inertial sensor, in the order of R28 and R71. -/
inductive Channel where
  | ax | ay | az | gx | gy | gz | mx | my | mz
deriving DecidableEq, Repr

/-- The channels in response order (R71, R122). -/
def Channel.all : List Channel := [.ax, .ay, .az, .gx, .gy, .gz, .mx, .my, .mz]

/-- One 9-axis frame of `int16` values: a raw sample or an average (R28, R160). -/
structure Frame where
  ax : Half
  ay : Half
  az : Half
  gx : Half
  gy : Half
  gz : Half
  mx : Half
  my : Half
  mz : Half
deriving DecidableEq, Repr, Inhabited

/-- One channel of a frame. -/
def Frame.get (f : Frame) : Channel → Half
  | .ax => f.ax
  | .ay => f.ay
  | .az => f.az
  | .gx => f.gx
  | .gy => f.gy
  | .gz => f.gz
  | .mx => f.mx
  | .my => f.my
  | .mz => f.mz

/-- The frame a function of the channel gives. -/
def Frame.ofFn (f : Channel → Half) : Frame :=
  ⟨f .ax, f .ay, f .az, f .gx, f .gy, f .gz, f .mx, f .my, f .mz⟩

/-- The nine commands by name, in table order (R62). -/
inductive Opcode where
  | setTargetFreq | setTargetDelta | getDeltaSteps | getImuMeasurement | setIsrFreq
  | enableCnc | disableCnc | setDeltaSteps | getIsrFreq
deriving DecidableEq, Repr

/-- The nine commands in table order. -/
def Opcode.all : List Opcode :=
  [.setTargetFreq, .setTargetDelta, .getDeltaSteps, .getImuMeasurement, .setIsrFreq,
   .enableCnc, .disableCnc, .setDeltaSteps, .getIsrFreq]

/-- One command as the framing layer hands it over (R25, R60): the id byte and the payload bytes.
The length `cmd.len` is `pay.length` (log 30). -/
structure Command where
  id : Byte
  pay : List Byte
deriving DecidableEq, Repr, Inhabited

/-- The three response lengths a command can have (R26: 0, 4 or 18). -/
inductive RespLen where
  | zero | four | eighteen
deriving DecidableEq, Repr, Inhabited

/-- The length in bytes. -/
def RespLen.bytes : RespLen → Nat
  | .zero => 0
  | .four => 4
  | .eighteen => 18

/-! ## Parameters -/

/-- `CMD_ID : Command → uint8` (R63, OPEN): the id of each of the nine commands. -/
structure CmdIds where
  setTargetFreq : Byte
  setTargetDelta : Byte
  getDeltaSteps : Byte
  getImuMeasurement : Byte
  setIsrFreq : Byte
  enableCnc : Byte
  disableCnc : Byte
  setDeltaSteps : Byte
  getIsrFreq : Byte
deriving DecidableEq, Repr

/-- The id of a command (R63). -/
def CmdIds.get (ids : CmdIds) : Opcode → Byte
  | .setTargetFreq => ids.setTargetFreq
  | .setTargetDelta => ids.setTargetDelta
  | .getDeltaSteps => ids.getDeltaSteps
  | .getImuMeasurement => ids.getImuMeasurement
  | .setIsrFreq => ids.setIsrFreq
  | .enableCnc => ids.enableCnc
  | .disableCnc => ids.disableCnc
  | .setDeltaSteps => ids.setDeltaSteps
  | .getIsrFreq => ids.getIsrFreq

/-- The reference instance of R63: table order, 0x00 to 0x08 (log 1). -/
def CmdIds.reference : CmdIds := ⟨0x00, 0x01, 0x02, 0x03, 0x04, 0x05, 0x06, 0x07, 0x08⟩

/-- `DELTA_OVERFLOW` (R104, D17): what a step past an end of the `int32` range does. -/
inductive DeltaOverflow where
  | wrap | fault
deriving DecidableEq, Repr

/-- `STEP_WAVEFORM` (R27, R103, D15): the electrical shape of one pulse, one edge or a high and a
low. No rule reads it. -/
inductive StepWaveform where
  | oneEdge | highThenLow
deriving DecidableEq, Repr

/-- The OPEN parameters of R5, fixed for one machine and written by no step. -/
structure Params where
  /-- `CMD_ID`. -/
  cmdIds : CmdIds
  /-- `TICK_RATE_RESET`. -/
  tickRateReset : Half
  /-- `RESET_SUSPENDED`. -/
  resetSuspended : Bool
  /-- `RESET_SHIELD_EN`. -/
  resetShieldEn : Bool
  /-- `DELTA_OVERFLOW`. -/
  deltaOverflow : DeltaOverflow
  /-- `STEP_WAVEFORM`. -/
  stepWaveform : StepWaveform
  /-- `MAX_PAYLOAD`, at least 7 (`Params.wellFormed`). -/
  maxPayload : Nat
  /-- `log2(IMU_W)`: the window holds `2 ^ imuLog2W` samples, so `IMU_W` is a power of two. -/
  imuLog2W : Nat
  /-- `step_pin_id[i]`, an opaque handle (R11). -/
  stepPinId : PerAxis Nat
  /-- `dir_pin_id[i]`, an opaque handle (R11). -/
  dirPinId : PerAxis Nat
deriving DecidableEq, Repr

/-- `IMU_W` (R160): the number of slots of the sampler's window. -/
def Params.imuW (p : Params) : Nat := 2 ^ p.imuLog2W

/-- The reference instance of the parameters (R5, D3, D6, D7, D17; log 1 to 4, 9 to 13): the spec's
reference values where it has them, and a named value where it has none. -/
def Params.reference : Params where
  cmdIds := .reference
  tickRateReset := 0
  resetSuspended := true
  resetShieldEn := false
  deltaOverflow := .wrap
  stepWaveform := .oneEdge
  maxPayload := 255
  imuLog2W := 5
  stepPinId := ⟨0, 1, 2⟩
  dirPinId := ⟨0, 1, 2⟩

/-- `INACTIVE_FREQ = 65535` (R5, R14): the rate that means "emit no pulses". -/
def inactiveFreq : Half := 65535

/-! ## Events -/

/-- The steps of R6, each as an input event, and `run`: the dispatcher taking every remaining
micro-step of its command with no `tick` between them (log 17). -/
inductive Event where
  /-- Power-on with `INITIAL_DELTAS` (R170). -/
  | reset (deltas : PerAxis Word)
  /-- The host hands one command to the dispatcher (R60). -/
  | submit (cmd : Command)
  /-- The dispatcher takes one micro-step (R47). -/
  | micro
  /-- The dispatcher takes its remaining micro-steps to completion. -/
  | run
  /-- The timer interrupt (R100). -/
  | tick
  /-- The sampler stores one fresh sensor frame (R161). -/
  | imuSample (frame : Frame)
deriving DecidableEq, Repr, Inhabited

/-! ## Free values

Each is uninterpreted: no proof can know a value of it. The first argument is `State.draws`, the
count of draws so far, so that every draw is fresh; a second one tells apart the values of one draw. -/

/-- A Boolean the spec leaves unspecified (`dir_out` and `resp.ok` after power-on; R31). -/
opaque Config.freeBool : Nat → Nat → Bool

/-- A byte the spec leaves unspecified (`cmd` and `resp.buf` after power-on; R31). -/
opaque Config.freeByte : Nat → Nat → Byte

/-- A response byte at or beyond `resp.len` (R26): by the draws and the responses so far, so that every
response has its own, and by the offset. -/
opaque Config.freeRespByte : Nat → Nat → Nat → Byte

/-- A 32-bit value the spec leaves unspecified (`target_delta` after power-on, R17; the response of
`GET_DELTA_STEPS` with no axis selected, R120). -/
opaque Config.freeWord : Nat → Nat → Word

/-- A frame the spec leaves unspecified (the sampler's window after power-on, R161). -/
opaque Config.freeFrame : Nat → Nat → Frame

/-- A natural number the spec leaves unspecified (`wp` and `cmd.len` after power-on). -/
opaque Config.freeNat : Nat → Nat → Nat

/-- The response length before the first command completes (R26). -/
opaque Config.freeRespLen : Nat → RespLen

/-- Which event comes next where the state does not schedule one (R6: any enabled step may be the
next one). -/
opaque Config.freeEvent : Nat → Event

end Sys2Proof
end

