-- ==== Sys2Proof/Decode.lean ====
section
/-! DEFINITION. `DECODE` (R73) as a total function from a command's bytes to an instruction or a named
rejection, the field assembly of R43 and R65, and the encoder written from the same formats (R64). -/

namespace Sys2Proof

/-! ## Byte order (R43): little-endian -/

/-- `MemRead(PAY, off, 1)`. An offset outside the payload reads as zero; no rule reads there. -/
def payByte (pay : List Byte) (off : Nat) : Byte := pay.getD off 0

/-- `MemRead(PAY, off, 2)`. -/
def payHalf (pay : List Byte) (off : Nat) : Half := payByte pay (off + 1) ++ payByte pay off

/-- `MemRead(PAY, off, 4)`. -/
def payWord (pay : List Byte) (off : Nat) : Word :=
  payByte pay (off + 3) ++ payByte pay (off + 2) ++ payByte pay (off + 1) ++ payByte pay off

/-- The bytes of a 16-bit value, least significant first. -/
def halfBytes (v : Half) : List Byte := [v.extractLsb' 0 8, v.extractLsb' 8 8]

/-- The bytes of a 32-bit value, least significant first. -/
def wordBytes (v : Word) : List Byte :=
  [v.extractLsb' 0 8, v.extractLsb' 8 8, v.extractLsb' 16 8, v.extractLsb' 24 8]

/-! ## Decoding -/

/-- The two command errors (R140): E1 and E2, internal names that never reach the host. -/
inductive CommandError where
  /-- E1: the id is not the id of one of the nine commands. -/
  | unknownCommand
  /-- E2: the payload length is not the command's fixed size. -/
  | invalidPayloadSize
deriving DecidableEq, Repr

/-- `SIZE(c)` (R73): the fixed payload size of each command. -/
def Opcode.size : Opcode → Nat
  | .setTargetFreq => 4
  | .setTargetDelta => 7
  | .getDeltaSteps => 1
  | .getImuMeasurement => 0
  | .setIsrFreq => 2
  | .enableCnc => 0
  | .disableCnc => 0
  | .setDeltaSteps => 5
  | .getIsrFreq => 0

/-- The command whose id is `id`, if there is one (R73). -/
def CmdIds.find (ids : CmdIds) (id : Byte) : Option Opcode :=
  Opcode.all.find? fun c => ids.get c == id

/-- The fields of a command of known name and right length (R64, R65). -/
def decodeFields (c : Opcode) (pay : List Byte) : Instr :=
  match c with
  | .setTargetFreq => .setTargetFreq (payByte pay 0) (payHalf pay 1) (payByte pay 3)
  | .setTargetDelta => .setTargetDelta (payByte pay 0) (payHalf pay 1) (payWord pay 3)
  | .getDeltaSteps => .getDeltaSteps (payByte pay 0)
  | .getImuMeasurement => .getImuMeasurement
  | .setIsrFreq => .setIsrFreq (payHalf pay 0)
  | .enableCnc => .enableCnc
  | .disableCnc => .disableCnc
  | .setDeltaSteps => .setDeltaSteps (payByte pay 0) (payWord pay 1)
  | .getIsrFreq => .getIsrFreq

/-- `DECODE` (R73): the id is tested first, then the length; no payload byte is looked at before
both tests have passed (R70). -/
def decode (ids : CmdIds) (cmd : Command) : Except CommandError Instr :=
  match ids.find cmd.id with
  | none => .error .unknownCommand
  | some c =>
    if cmd.pay.length = c.size then .ok (decodeFields c cmd.pay)
    else .error .invalidPayloadSize

/-! ## Encoding -/

/-- The command's name. -/
def Instr.opcode : Instr → Opcode
  | .setTargetFreq _ _ _ => .setTargetFreq
  | .setTargetDelta _ _ _ => .setTargetDelta
  | .getDeltaSteps _ => .getDeltaSteps
  | .getImuMeasurement => .getImuMeasurement
  | .setIsrFreq _ => .setIsrFreq
  | .enableCnc => .enableCnc
  | .disableCnc => .disableCnc
  | .setDeltaSteps _ _ => .setDeltaSteps
  | .getIsrFreq => .getIsrFreq

/-- The payload bytes of an instruction (R64). -/
def Instr.payload : Instr → List Byte
  | .setTargetFreq mask freq direction => mask :: (halfBytes freq ++ [direction])
  | .setTargetDelta mask freq target => mask :: (halfBytes freq ++ wordBytes target)
  | .getDeltaSteps mask => [mask]
  | .getImuMeasurement => []
  | .setIsrFreq freq => halfBytes freq
  | .enableCnc => []
  | .disableCnc => []
  | .setDeltaSteps mask value => mask :: wordBytes value
  | .getIsrFreq => []

/-- The command a host sends for an instruction (R61 to R64). -/
def encode (ids : CmdIds) (i : Instr) : Command := ⟨ids.get i.opcode, i.payload⟩

/-- A command in link order (R61): the id byte, then the payload. -/
def Command.link (c : Command) : List Byte := c.id :: c.pay

/-- A command read from its bytes in link order. -/
def Command.ofLink : List Byte → Option Command
  | [] => none
  | id :: pay => some ⟨id, pay⟩

/-! ## The opcode table's numbering of bits -/

/-- The command whose link bytes are the `nbits` low bits of `w`, link byte `j` being bits
`8j+7 : 8j`; where the table gives fewer bits than the command has, the bytes above are zero. -/
def tableCommand (ids : CmdIds) (nbits w : Nat) : Command :=
  let v := w % 2 ^ nbits
  let id : Byte := BitVec.ofNat 8 v
  let need := match ids.find id with
    | some c => c.size
    | none => 0
  ⟨id, (List.range (max (nbits / 8 - 1) need)).map fun j => BitVec.ofNat 8 (v >>> (8 * (j + 1)))⟩

/-- The instruction the decoder reads from the opcode table's word, in the reference assignment of
ids (R63). -/
def decodeTableWord (nbits w : Nat) : Option Instr :=
  match decode .reference (tableCommand .reference nbits w) with
  | .ok i => some i
  | .error _ => none

end Sys2Proof
end

