-- ==== Sys2Proof/WellFormed.lean ====
section
/-! DEFINITION. Decidable checks. Every value of `Instr` is a legal command: the field types hold
exactly what the encoding holds and no field value is rejected (R142), so the checks are on what is
not a command by construction: a packet, and the parameters. -/

namespace Sys2Proof

/-- The nine ids are pairwise different (R63: `CMD_ID` is required only to be injective). -/
def CmdIds.injective (ids : CmdIds) : Bool :=
  Opcode.all.all fun c => Opcode.all.all fun d => c == d || ids.get c != ids.get d

/-- The parameters are as R5 requires: injective ids, `MAX_PAYLOAD >= 7`. -/
def Params.wellFormed (p : Params) : Bool := p.cmdIds.injective && decide (7 ≤ p.maxPayload)

/-- The packet's id is the id of one of the nine commands (R69). -/
def Command.knownId (ids : CmdIds) (c : Command) : Bool := (ids.find c.id).isSome

/-- The packet's payload has its command's fixed size (R70). -/
def Command.rightSize (ids : CmdIds) (c : Command) : Bool :=
  match ids.find c.id with
  | some op => c.pay.length == op.size
  | none => false

/-- The payload is no longer than the framing layer hands over (R41). -/
def Command.fits (p : Params) (c : Command) : Bool := decide (c.pay.length ≤ p.maxPayload)

/-- The packet is one of the nine commands at its fixed size. -/
def Command.wellFormed (p : Params) (c : Command) : Bool :=
  c.knownId p.cmdIds && c.rightSize p.cmdIds && c.fits p

end Sys2Proof
end

