-- ==== Sys2Proof/Machine/State.lean ====
section
/-! DEFINITION. The architectural state of the block (R10 to R31), the dispatcher's sequencer (R24,
R47), the external sampler's window (R160, R161), the two traces a run is observed by (R27, R190),
and the state right after power-on with the reference parameters (R31, R170). -/

namespace Sys2Proof.Machine

/-! ## Outcomes other than a next state -/

/-- Why a run stops. -/
inductive Fault where
  /-- Raised by `tick` at an axis whose `target_freq` is 0 while not suspended (R102, R143). Safe: the
  device does something and the model says nothing. -/
  | divideByZero
  /-- Raised by `tick`, only with `DELTA_OVERFLOW = fault`, when a pulse would take `delta_steps` past
  an end of the `int32` range (R104, R143). Safe. -/
  | deltaOverflow
  /-- Raised by a scheduled `submit` while a command is in progress: the host has no such step (R53,
  R180 H2, U16). A stuck state; safe. -/
  | submitWhileBusy
  /-- Raised by a scheduled `submit` longer than `MAX_PAYLOAD`: the framing layer hands over no such
  command (R41). A stuck state; safe. -/
  | payloadTooLong
  /-- Raised by a scheduled `micro` or `run` while no command is in progress (R6). A stuck state; safe. -/
  | dispatcherIdle
  /-- Raised by a scheduled `imu_sample` while a command is in progress (R6, R161). A stuck state; safe. -/
  | sampleWhileBusy
deriving DecidableEq, Repr

/-- Why a step has no meaning. -/
inductive Refusal where
  /-- Raised by no arm of `exec`: every command has its meaning. It would be safe. -/
  | notModelled (mnemonic : String)
deriving DecidableEq, Repr

/-! ## The axis register file -/

/-- `ax[i].control_mode` (R16). -/
inductive ControlMode where
  | frequencyControl | deltaControl
deriving DecidableEq, Repr

/-- The one-bit value of a control mode (R16, D5), observable nowhere. -/
def ControlMode.bit : ControlMode → Bool
  | .frequencyControl => false
  | .deltaControl => true

/-- One axis record (R10). Its constants `select_flag`, `step_pin_id` and `dir_pin_id` (R11, R12) are
hardwired and read through `getSelectFlag`, `State.stepPinId` and `State.dirPinId`. -/
structure AxisState where
  /-- `int32` (R13). -/
  deltaSteps : Word
  /-- `uint16` (R14). -/
  targetFreq : Half
  /-- `true` is the positive direction (R15). -/
  direction : Bool
  /-- R16. -/
  controlMode : ControlMode
  /-- `int32`, meaningful in `DeltaControl` only (R17). -/
  targetDelta : Word
  /-- `uint16` (R18). -/
  tickCounter : Half
deriving DecidableEq, Repr

/-! ## The dispatcher's micro-steps -/

/-- One write of one register of the block: the atomic unit of R46. -/
inductive RegWrite where
  | controlMode (a : Axis) (m : ControlMode)
  | targetFreq (a : Axis) (f : Half)
  | direction (a : Axis) (d : Bool)
  | targetDelta (a : Axis) (t : Word)
  | clearCounter (a : Axis)
  | deltaSteps (a : Axis) (v : Word)
  | tickRate (r : Half)
  | isrSuspended (b : Bool)
  | shieldEnabled (b : Bool)
deriving DecidableEq, Repr

/-- One micro-step of a command between `DECODE` and `COMPLETE` (R47). -/
inductive MicroOp where
  /-- `ACQUIRE: isr_suspended <- true` (R49). -/
  | acquire
  /-- `RELEASE: isr_suspended <- false` (R49). -/
  | release
  /-- One register write. -/
  | write (w : RegWrite)
  /-- The read `p <- ax[a].delta_steps` of `set_target_delta(a, f, t)`, which decides the writes that
  follow it (R82). -/
  | readTarget (a : Axis) (f : Half) (t : Word)
  /-- `GET_DELTA_STEPS`'s read of one axis into the response (R120). -/
  | respondDelta (a : Axis)
  /-- `GET_ISR_FREQ`'s read of `tick_rate` into the response (R121). -/
  | respondRate
  /-- `GET_IMU_MEASUREMENT`'s read of `imu_avg` into the response (R122). -/
  | respondImu
deriving DecidableEq, Repr

/-- What `COMPLETE` reports: the response length, and whether the four response bytes are unspecified
because no axis was selected (R120). -/
structure Finish where
  len : RespLen
  unspecified : Bool
deriving DecidableEq, Repr

/-- `disp` (R24). `busy0` is `Busy(0)`, before `DECODE`; `busy k ops fin` is `Busy(k)` for `k ≥ 1`, with
the micro-steps still to take before `COMPLETE`, which stand for the dispatcher's place in the body of
its command and its local values (log 18). -/
inductive Disp where
  | idle
  | busy0
  | busy (k : Nat) (ops : List MicroOp) (fin : Finish)
deriving DecidableEq, Repr

/-- The index of the next micro-step, none while `Idle` (R24). -/
def Disp.index : Disp → Option Nat
  | .idle => none
  | .busy0 => some 0
  | .busy k _ _ => some k

/-! ## Outputs -/

/-- `resp` (R26, R42). -/
structure Response where
  ok : Bool
  len : RespLen
  buf : Vector Byte 18
deriving DecidableEq, Repr

/-- `Pulse(i, d)`: axis `i` stepped once in direction `d` (R27). -/
structure Pulse where
  axis : Axis
  dir : Bool
deriving DecidableEq, Repr

/-- A response as the host has it: `ok` and the bytes below `resp.len` (R71). -/
structure Reply where
  ok : Bool
  bytes : List Byte
deriving DecidableEq, Repr

/-! ## The state -/

/-- The whole state of the block and of the sampler beside it. -/
structure State where
  /-- The OPEN parameters of R5; written by no step (log 2). -/
  params : Params
  /-- `ax[0..2]` (R10). -/
  axes : PerAxis AxisState
  /-- `tick_rate` (R20); also the output `tick_rate_out` (R27). -/
  tickRate : Half
  /-- `isr_suspended` (R21). -/
  isrSuspended : Bool
  /-- `shield_enabled` (R22); also the output `shield_en` (R27). -/
  shieldEnabled : Bool
  /-- `disp` (R24). -/
  disp : Disp
  /-- `cmd` (R25). -/
  cmd : Command
  /-- `resp` (R26). -/
  resp : Response
  /-- `dir_out[0..2]` (R27). -/
  dirOut : PerAxis Bool
  /-- The pulse trace, oldest first (R27). -/
  trace : List Pulse
  /-- The responses so far, oldest first (R190; log 22). -/
  replies : List Reply
  /-- The sampler's window `buf[0 .. W-1]` (R160). -/
  imuBuf : List Frame
  /-- The sampler's write pointer `wp` (R161). -/
  imuWp : Nat
  /-- The model's own field: the events scheduled to come next, first one first (log 15). -/
  schedule : List Event
  /-- The model's own field: how many free values have been drawn (log 20). -/
  draws : Nat
deriving DecidableEq, Repr

/-- An axis right after `init` (R80), with the initial position `d` and the reset value `t` of
`target_delta`, which `init` does not give. -/
def AxisState.initial (d t : Word) : AxisState where
  deltaSteps := d
  targetFreq := inactiveFreq
  direction := true
  controlMode := .frequencyControl
  targetDelta := t
  tickCounter := 0

/-- The state right after power-on (R31, R170) with the reference parameters and
`INITIAL_DELTAS = (0, 0, 0)`. What the spec leaves unspecified at reset (`target_delta`, `cmd`, `resp`,
`dir_out`, the sampler's window) holds a named value here (log 3 to 10); the event `Event.reset` draws
it instead. -/
def State.reset : State where
  params := .reference
  axes := ⟨.initial 0 0, .initial 0 0, .initial 0 0⟩
  tickRate := Params.reference.tickRateReset
  isrSuspended := Params.reference.resetSuspended
  shieldEnabled := Params.reference.resetShieldEn
  disp := .idle
  cmd := ⟨0, []⟩
  resp := ⟨false, .zero, Vector.replicate 18 0⟩
  dirOut := ⟨false, false, false⟩
  trace := []
  replies := []
  imuBuf := List.replicate Params.reference.imuW ⟨0, 0, 0, 0, 0, 0, 0, 0, 0⟩
  imuWp := 0
  schedule := []
  draws := 0

end Sys2Proof.Machine
end

