-- ==== Sys2Proof/Machine/Ops.lean ====
section
/-! DEFINITION. The named operations on the state: register access, the constants, the response buffer,
the PulseEngine operations of R80 to R89, the ending of a command (R47 `COMPLETE`, R141 failure) and
power-on (R170). Every other file of the machine reads and writes the state through these. -/

namespace Sys2Proof.Machine

/-! ## Access -/

/-- `ax[a]`. -/
def State.axis (s : State) (a : Axis) : AxisState := s.axes.get a

/-- `ax[a] <- x`. -/
def State.setAxis (s : State) (a : Axis) (x : AxisState) : State := { s with axes := s.axes.set a x }

/-- `disp <- d` (R24). -/
def State.setDisp (s : State) (d : Disp) : State := { s with disp := d }

/-- `get_select_flag(a)` (R12, R88): the hardwired constant `1 << a`. -/
def getSelectFlag (a : Axis) : Byte := 1#8 <<< a.index

/-- `axis_count()` (R89). -/
def axisCount : Nat := Axis.all.length

/-- `ax[a].step_pin_id` (R11): a constant of the platform; no rule reads it. -/
def State.stepPinId (s : State) (a : Axis) : Nat := s.params.stepPinId.get a

/-- `ax[a].dir_pin_id` (R11): a constant of the platform; no rule reads it. -/
def State.dirPinId (s : State) (a : Axis) : Nat := s.params.dirPinId.get a

/-- The output `shield_en` (R27): equal to `shield_enabled` at all times. -/
def State.shieldEn (s : State) : Bool := s.shieldEnabled

/-- The output `tick_rate_out` (R27): equal to `tick_rate` at all times. -/
def State.tickRateOut (s : State) : Half := s.tickRate

/-- `cmd.len` (R25). -/
def State.cmdLen (s : State) : Nat := s.cmd.pay.length

/-! ## Register writes (R46) -/

/-- One register write: one atomic action on one named register. -/
def RegWrite.apply (w : RegWrite) (s : State) : State :=
  match w with
  | .controlMode a m => s.setAxis a { s.axis a with controlMode := m }
  | .targetFreq a f => s.setAxis a { s.axis a with targetFreq := f }
  | .direction a d => s.setAxis a { s.axis a with direction := d }
  | .targetDelta a t => s.setAxis a { s.axis a with targetDelta := t }
  | .clearCounter a => s.setAxis a { s.axis a with tickCounter := 0 }
  | .deltaSteps a v => s.setAxis a { s.axis a with deltaSteps := v }
  | .tickRate r => { s with tickRate := r }
  | .isrSuspended b => { s with isrSuspended := b }
  | .shieldEnabled b => { s with shieldEnabled := b }

/-- Register writes one after another. -/
def applyWrites : List RegWrite → State → State
  | [], s => s
  | w :: ws, s => applyWrites ws (w.apply s)

/-! ## PulseEngine operations (R80 to R87) -/

/-- `init` on one axis (R80): it does not write `target_delta`. -/
def AxisState.init (x : AxisState) (d : Word) : AxisState :=
  { x with controlMode := .frequencyControl, targetFreq := inactiveFreq, direction := true,
           tickCounter := 0, deltaSteps := d }

/-- `init(initial_deltas)` (R80). The constants it binds are hardwired. -/
def State.init (s : State) (deltas : PerAxis Word) : State :=
  { s with axes := .ofFn fun a => (s.axis a).init (deltas.get a) }

/-- The four writes of `set_target_freq(a, f, d)` (R81). -/
def setTargetFreqWrites (a : Axis) (f : Half) (d : Bool) : List RegWrite :=
  [.controlMode a .frequencyControl, .targetFreq a f, .direction a d, .clearCounter a]

/-- `set_target_freq(a, f, d)` (R81). -/
def State.setTargetFreq (s : State) (a : Axis) (f : Half) (d : Bool) : State :=
  applyWrites (setTargetFreqWrites a f d) s

/-- The writes of `set_target_delta(a, f, t)` once it has read `p` (R82): three in the cancel branch,
five otherwise. `t >s p` is a signed comparison, not a subtraction. -/
def setTargetDeltaWrites (a : Axis) (f : Half) (t p : Word) : List RegWrite :=
  if t = p then
    [.targetFreq a inactiveFreq, .controlMode a .frequencyControl, .clearCounter a]
  else
    [.controlMode a .deltaControl, .targetDelta a t, .targetFreq a f, .direction a (p.slt t),
     .clearCounter a]

/-- `get_delta_steps(a)` (R84). -/
def State.getDeltaSteps (s : State) (a : Axis) : Word := (s.axis a).deltaSteps

/-- `set_target_delta(a, f, t)` (R82). -/
def State.setTargetDelta (s : State) (a : Axis) (f : Half) (t : Word) : State :=
  applyWrites (setTargetDeltaWrites a f t (s.getDeltaSteps a)) s

/-- `set_delta_steps(a, v)` (R83). -/
def State.setDeltaSteps (s : State) (a : Axis) (v : Word) : State := (RegWrite.deltaSteps a v).apply s

/-- `set_tick_rate(r)` (R85). -/
def State.setTickRate (s : State) (r : Half) : State := (RegWrite.tickRate r).apply s

/-- `get_tick_rate()` (R86). -/
def State.getTickRate (s : State) : Half := s.tickRate

/-- `suspend_isr(b)` (R87). -/
def State.suspendIsr (s : State) (b : Bool) : State := (RegWrite.isrSuspended b).apply s

/-! ## The response buffer (R42, R43) -/

/-- `MemWrite(RESP, off, n, v)` with the `n` bytes of `v` given least significant first. A byte at or
beyond offset 18 does not exist; no rule writes one. -/
def memWrite (buf : Vector Byte 18) : Nat → List Byte → Vector Byte 18
  | _, [] => buf
  | off, b :: bs => memWrite (buf.setIfInBounds off b) (off + 1) bs

/-- `MemWrite(RESP, off, n, v)` on the state. -/
def State.writeResp (s : State) (off : Nat) (bytes : List Byte) : State :=
  { s with resp := { s.resp with buf := memWrite s.resp.buf off bytes } }

/-- The byte the host finds at offset `off` of the response (R26): one of the `resp.len` bytes the
command wrote, or a value the spec leaves unspecified (log 21). -/
def State.respByte (s : State) (off : Nat) : Byte :=
  if off < s.resp.len.bytes then s.resp.buf.toList.getD off 0
  else Config.freeRespByte s.draws s.replies.length off

/-! ## The end of a command -/

/-- The four bytes of a `GET_DELTA_STEPS` response that the spec leaves unspecified (R120): a draw. -/
def State.drawResponse (s : State) : State :=
  { s.writeResp 0 (wordBytes (Config.freeWord s.draws 0)) with draws := s.draws + 1 }

/-- `resp.ok <- ok; resp.len <- len; disp <- Idle`, with the response the host then has added to the
observation (R190). -/
def State.respond (s : State) (ok : Bool) (len : RespLen) : State :=
  { s with resp := { s.resp with ok := ok, len := len }
           disp := .idle
           replies := s.replies ++ [⟨ok, s.resp.buf.toList.take len.bytes⟩] }

/-- `COMPLETE` (R47, R110). -/
def State.complete (s : State) (fin : Finish) : State :=
  (if fin.unspecified then s.drawResponse else s).respond true fin.len

/-- `raise E` in `DECODE` (R141): both errors end the command in the same way and write nothing else.
This is the block's one synchronous exception; it saves nothing and transfers control nowhere. -/
def State.raise (s : State) (_e : CommandError) : State := s.respond false .zero

/-! ## Power-on (R170) -/

/-- What `reset` leaves unspecified on one axis and its direction line: `target_delta` (R17). -/
def State.drawTargetDeltas (s : State) : State :=
  { s with axes := .ofFn fun a =>
      { s.axis a with targetDelta := Config.freeWord s.draws (a.index + 1) } }

/-- What `reset` leaves unspecified outside the axis file: `dir_out`, `cmd`, `resp` (R31), and the
sampler's window and pointer (R161). A drawn command is no longer than `MAX_PAYLOAD` (R25) and a drawn
pointer lies in the window. -/
def State.drawUnspecified (s : State) : State :=
  { s with
    dirOut := .ofFn fun a => Config.freeBool s.draws a.index
    cmd := ⟨Config.freeByte s.draws 0,
      ((List.range (Config.freeNat s.draws 0)).map fun j => Config.freeByte s.draws (j + 1)).take
        s.params.maxPayload⟩
    resp := ⟨Config.freeBool s.draws 3, Config.freeRespLen s.draws,
      Vector.ofFn fun j => Config.freeByte (s.draws + 1) j.val⟩
    imuBuf := (List.range s.params.imuW).map fun k => Config.freeFrame s.draws k
    imuWp := Config.freeNat s.draws 1 % s.params.imuW
    draws := s.draws + 2 }

/-- `reset(INITIAL_DELTAS)` (R170), a power cycle: `init`, the three OPEN reset values, the dispatcher
idle, empty traces, and a draw for everything it leaves unspecified. -/
def State.powerOn (s : State) (deltas : PerAxis Word) : State :=
  { (s.init deltas).drawTargetDeltas.drawUnspecified with
    tickRate := s.params.tickRateReset
    isrSuspended := s.params.resetSuspended
    shieldEnabled := s.params.resetShieldEn
    disp := .idle
    trace := []
    replies := [] }

end Sys2Proof.Machine
end

