-- ==== Sys2Proof/Machine/Flags.lean ====
section
/-! DEFINITION. The comparisons of the block (R109). It has no condition codes (R29); what stands in
their place are the tests of `tick`, each a Boolean of the registers it reads. -/

namespace Sys2Proof.Machine

/-- The axis is active: `target_freq != INACTIVE_FREQ` (R9, R101). -/
def AxisState.active (x : AxisState) : Bool := x.targetFreq != inactiveFreq

/-- The threshold `T = tick_rate div target_freq` (R102): unsigned, toward zero. No rule evaluates it
at a divisor of 0 or of 65535. -/
def threshold (rate freq : Half) : Half := rate / freq

/-- `tick_counter >= T`, unsigned (R101, R109). -/
def reached (counter t : Half) : Bool := t.ule counter

/-- `delta_steps` one step on in direction `d`, in `int32` with the range ends joined (R104). -/
def stepDelta (d : Bool) (p : Word) : Word := if d then p + 1 else p - 1

/-- The step would go past an end of the `int32` range (R104). -/
def atRangeEnd (d : Bool) (p : Word) : Bool :=
  if d then p == 2147483647#32 else p == 2147483648#32

/-- The arrival test, made after the update of `delta_steps` (R105): equality only. -/
def AxisState.arrived (x : AxisState) : Bool :=
  x.controlMode == .deltaControl && x.deltaSteps == x.targetDelta

end Sys2Proof.Machine
end

