-- ==== Sys2Proof/Machine/Operands.lean ====
section
/-! DEFINITION. The operand forms of the commands: the axis bitmask (R66), the direction byte (R67), and
the layouts of the responses (R71). -/

namespace Sys2Proof.Machine

/-- Axis `a` is selected by `mask` (R66): `mask & select_flag != 0`. Bits 7:3 select nothing. -/
def selects (mask : Byte) (a : Axis) : Bool := mask &&& getSelectFlag a != 0

/-- The selected axes in the order X, Y, Z (R66). -/
def selectedAxes (mask : Byte) : List Axis := Axis.all.filter (selects mask)

/-- `direction = (byte != 0)` (R65, R67). -/
def directionOf (b : Byte) : Bool := b != 0

/-- The four response bytes of `GET_DELTA_STEPS` (R71). -/
def deltaResponse (v : Word) : List Byte := wordBytes v

/-- The four response bytes of `GET_ISR_FREQ`: the rate zero-extended to 32 bits (R71, R121). -/
def rateResponse (r : Half) : List Byte := wordBytes (r.setWidth 32)

/-- The eighteen response bytes of `GET_IMU_MEASUREMENT`: channel `c` at offsets `2c` and `2c + 1`
(R71, R122). -/
def imuResponse (f : Frame) : List Byte := Channel.all.flatMap fun c => halfBytes (f.get c)

end Sys2Proof.Machine
end

