-- ==== Sys2Proof/Machine/Imu.lean ====
section
/-! DEFINITION. The inertial sampler beside the block, as far as the spec gives it (R160 to R162). -/

namespace Sys2Proof.Machine

/-- The sum of one channel over the window, exact (R160). -/
def channelSum (buf : List Frame) (c : Channel) : Int := (buf.map fun f => (f.get c).toInt).sum

/-- `average()` (R160): per channel the sum shifted right arithmetically by `log2(W)`, which is the
floor of `sum / W`, narrowed to 16 bits. -/
def average (log2W : Nat) (buf : List Frame) : Frame :=
  .ofFn fun c => BitVec.ofInt 16 (channelSum buf c >>> log2W)

/-- The input `imu_avg` (R28): what the sampler's `average()` answers now. -/
def State.imuAvg (s : State) : Frame := average s.params.imuLog2W s.imuBuf

/-- `sample()` (R161): the frame overwrites the slot at `wp`, which advances modulo `W`. -/
def State.imuSample (s : State) (frame : Frame) : State :=
  { s with imuBuf := s.imuBuf.set s.imuWp frame, imuWp := (s.imuWp + 1) % s.params.imuW }

end Sys2Proof.Machine
end

