-- ==== Sys2Proof/Machine/Micro.lean ====
section
/-! DEFINITION. The micro-steps of the dispatcher (R47) and the bracket of a guarded command (R49, R110). -/

namespace Sys2Proof.Machine

/-- What one micro-step does to the registers and the response. -/
def MicroOp.apply (op : MicroOp) (s : State) : State :=
  match op with
  | .acquire => s.suspendIsr true
  | .release => s.suspendIsr false
  | .write w => w.apply s
  | .readTarget _ _ _ => s
  | .respondDelta a => s.writeResp 0 (deltaResponse (s.getDeltaSteps a))
  | .respondRate => s.writeResp 0 (rateResponse s.getTickRate)
  | .respondImu => s.writeResp 0 (imuResponse s.imuAvg)

/-- The register writes a micro-step decides on, taken right after it: those of `set_target_delta`
after its read (R82). -/
def MicroOp.follow (op : MicroOp) (s : State) : List RegWrite :=
  match op with
  | .readTarget a f t => setTargetDeltaWrites a f t (s.getDeltaSteps a)
  | _ => []

/-- Micro-steps taken one after another with no `tick` between them. -/
def runOps : List MicroOp → State → State
  | [], s => s
  | op :: ops, s => runOps ops (applyWrites (op.follow s) (op.apply s))

/-- A command after `DECODE`: its micro-steps and what `COMPLETE` reports. -/
structure Body where
  ops : List MicroOp
  fin : Finish
deriving DecidableEq, Repr

/-- The shape of a masked, guarded command (R49, R110): one bracket around the loop over the selected
axes, taken even when no axis is selected. -/
def guardedOps (mask : Byte) (op : Axis → List MicroOp) : List MicroOp :=
  .acquire :: ((selectedAxes mask).flatMap op ++ [.release])

/-- A whole command from `DECODE`'s success to `COMPLETE`, with no `tick` between its micro-steps. No
command fails after `DECODE` (R142). -/
def runBody (b : Body) (s : State) : Host.Outcome State Fault Refusal :=
  .next ((runOps b.ops s).complete b.fin)

end Sys2Proof.Machine
end

