-- ==== Sys2Proof/Machine/Motion.lean ====
section
/-! DEFINITION. The motion commands (R110 to R113). -/

namespace Sys2Proof.Machine

/-- The body of `SET_TARGET_FREQ` (R111): `set_target_freq` on every selected axis. -/
def bodySetTargetFreq (mask : Byte) (freq : Half) (direction : Byte) : Body where
  ops := guardedOps mask fun a =>
    (setTargetFreqWrites a freq (directionOf direction)).map MicroOp.write
  fin := ⟨.zero, false⟩

/-- `SET_TARGET_FREQ` (R111). -/
def execSetTargetFreq (mask : Byte) (freq : Half) (direction : Byte) (s : State) :
    Host.Outcome State Fault Refusal :=
  runBody (bodySetTargetFreq mask freq direction) s

/-- The body of `SET_TARGET_DELTA` (R112): `set_target_delta` on every selected axis. -/
def bodySetTargetDelta (mask : Byte) (freq : Half) (target : Word) : Body where
  ops := guardedOps mask fun a => [.readTarget a freq target]
  fin := ⟨.zero, false⟩

/-- `SET_TARGET_DELTA` (R112). -/
def execSetTargetDelta (mask : Byte) (freq : Half) (target : Word) (s : State) :
    Host.Outcome State Fault Refusal :=
  runBody (bodySetTargetDelta mask freq target) s

/-- The body of `SET_DELTA_STEPS` (R113): `set_delta_steps` on every selected axis. -/
def bodySetDeltaSteps (mask : Byte) (value : Word) : Body where
  ops := guardedOps mask fun a => [.write (.deltaSteps a value)]
  fin := ⟨.zero, false⟩

/-- `SET_DELTA_STEPS` (R113). -/
def execSetDeltaSteps (mask : Byte) (value : Word) (s : State) :
    Host.Outcome State Fault Refusal :=
  runBody (bodySetDeltaSteps mask value) s

end Sys2Proof.Machine
end

