-- ==== Sys2Proof/Machine/Query.lean ====
section
/-! DEFINITION. The query commands (R120 to R122). -/

namespace Sys2Proof.Machine

/-- The body of `GET_DELTA_STEPS` (R120): every selected axis in turn overwrites the four response
bytes, so the last one stays; with no axis selected they are unspecified. -/
def bodyGetDeltaSteps (mask : Byte) : Body where
  ops := guardedOps mask fun a => [.respondDelta a]
  fin := ⟨.four, (selectedAxes mask).isEmpty⟩

/-- `GET_DELTA_STEPS` (R120). -/
def execGetDeltaSteps (mask : Byte) (s : State) : Host.Outcome State Fault Refusal :=
  runBody (bodyGetDeltaSteps mask) s

/-- The body of `GET_ISR_FREQ` (R121). -/
def bodyGetIsrFreq : Body where
  ops := [.respondRate]
  fin := ⟨.four, false⟩

/-- `GET_ISR_FREQ` (R121). -/
def execGetIsrFreq (s : State) : Host.Outcome State Fault Refusal := runBody bodyGetIsrFreq s

/-- The body of `GET_IMU_MEASUREMENT` (R122). -/
def bodyGetImuMeasurement : Body where
  ops := [.respondImu]
  fin := ⟨.eighteen, false⟩

/-- `GET_IMU_MEASUREMENT` (R122). -/
def execGetImuMeasurement (s : State) : Host.Outcome State Fault Refusal :=
  runBody bodyGetImuMeasurement s

end Sys2Proof.Machine
end

