-- ==== Sys2Proof/Machine/System.lean ====
section
/-! DEFINITION. The configuration and system commands (R130 to R132). None is guarded (R50) and none is
privileged (R150). -/

namespace Sys2Proof.Machine

/-- The body of `SET_ISR_FREQ` (R130). -/
def bodySetIsrFreq (freq : Half) : Body where
  ops := [.write (.tickRate freq)]
  fin := ⟨.zero, false⟩

/-- `SET_ISR_FREQ` (R130). -/
def execSetIsrFreq (freq : Half) (s : State) : Host.Outcome State Fault Refusal :=
  runBody (bodySetIsrFreq freq) s

/-- The body of `ENABLE_CNC` (R131): the shield first, then the suspend. -/
def bodyEnableCnc : Body where
  ops := [.write (.shieldEnabled true), .write (.isrSuspended false)]
  fin := ⟨.zero, false⟩

/-- `ENABLE_CNC` (R131). -/
def execEnableCnc (s : State) : Host.Outcome State Fault Refusal := runBody bodyEnableCnc s

/-- The body of `DISABLE_CNC` (R132): the suspend first, then the shield. -/
def bodyDisableCnc : Body where
  ops := [.write (.isrSuspended true), .write (.shieldEnabled false)]
  fin := ⟨.zero, false⟩

/-- `DISABLE_CNC` (R132). -/
def execDisableCnc (s : State) : Host.Outcome State Fault Refusal := runBody bodyDisableCnc s

end Sys2Proof.Machine
end

