-- ==== Sys2Proof/Machine/Dispatch.lean ====
section
/-! DEFINITION. The meaning of every command, one arm each (R62): the command from the success of
`DECODE` to `COMPLETE`, with no `tick` between its micro-steps. -/

namespace Sys2Proof.Machine

def exec (i : Instr) (s : State) : Host.Outcome State Fault Refusal :=
  match i with
  | .setTargetFreq mask freq direction => Sys2Proof.Machine.execSetTargetFreq mask freq direction s
  | .setTargetDelta mask freq target => Sys2Proof.Machine.execSetTargetDelta mask freq target s
  | .getDeltaSteps mask => Sys2Proof.Machine.execGetDeltaSteps mask s
  | .getImuMeasurement => Sys2Proof.Machine.execGetImuMeasurement s
  | .setIsrFreq freq => Sys2Proof.Machine.execSetIsrFreq freq s
  | .enableCnc => Sys2Proof.Machine.execEnableCnc s
  | .disableCnc => Sys2Proof.Machine.execDisableCnc s
  | .setDeltaSteps mask value => Sys2Proof.Machine.execSetDeltaSteps mask value s
  | .getIsrFreq => Sys2Proof.Machine.execGetIsrFreq s

end Sys2Proof.Machine
end

