-- ==== Sys2Proof/Machine/Tick.lean ====
section
/-! DEFINITION. `tick`, the step of the interrupt context (R100 to R105). It saves and restores nothing
(R148, R149): it returns by finishing, and the dispatcher goes on from the same micro-step. -/

namespace Sys2Proof.Machine

/-- `dir_out[a] <- d; emit Pulse(a, d)` (R103). -/
def State.emitPulse (s : State) (a : Axis) (d : Bool) : State :=
  { s with dirOut := s.dirOut.set a d, trace := s.trace ++ [⟨a, d⟩] }

/-- The axis after the pulse's own updates (R101, R104): the counter back to 0, the position one step
on. -/
def AxisState.stepped (x : AxisState) : AxisState :=
  { x with tickCounter := 0, deltaSteps := stepDelta x.direction x.deltaSteps }

/-- Arrival (R105): on equality with the target the axis stops in the same `tick`. -/
def AxisState.settle (x : AxisState) : AxisState :=
  if x.arrived then { x with controlMode := .frequencyControl, targetFreq := inactiveFreq } else x

/-- The part of `axis_tick(a)` that follows `tick_counter >= T` (R101, R103 to R105). -/
def pulse (a : Axis) (s : State) : Except Fault State :=
  let x := s.axis a
  if s.params.deltaOverflow == .fault && atRangeEnd x.direction x.deltaSteps then
    .error .deltaOverflow
  else
    .ok ((s.emitPulse a x.direction).setAxis a x.stepped.settle)

/-- `axis_tick(a)` (R101): an inactive axis is skipped untouched; a rate of 0 faults (R102). -/
def axisTick (a : Axis) (s : State) : Except Fault State :=
  let x := s.axis a
  if x.targetFreq = inactiveFreq then .ok s
  else if x.targetFreq = 0 then .error .divideByZero
  else if reached (x.tickCounter + 1) (threshold s.tickRate x.targetFreq) then pulse a s
  else .ok (s.setAxis a { x with tickCounter := x.tickCounter + 1 })

/-- `axis_tick` on the axes of a list, in its order. -/
def tickAxes : List Axis → State → Except Fault State
  | [], s => .ok s
  | a :: as, s =>
    match axisTick a s with
    | .ok t => tickAxes as t
    | .error f => .error f

/-- `tick()` (R100): a no-op while suspended, else the axes X, Y, Z in this order. -/
def tick (s : State) : Except Fault State :=
  if s.isrSuspended then .ok s else tickAxes Axis.all s

end Sys2Proof.Machine
end

