-- ==== Sys2Proof/Machine/Events.lean ====
section
/-! DEFINITION. The steps of the agents of R6, each an event: power-on, the host's `submit`, the
dispatcher's micro-steps, the timer interrupt, the sampler. The order of events is free (R47, R48): a
state schedules the events to come, and where it schedules none the next one is a free value. -/

namespace Sys2Proof.Machine

/-- The body `DECODE` selects (R73): the nine bodies are the meanings' own. -/
def bodyOf : Instr → Body
  | .setTargetFreq mask freq direction => bodySetTargetFreq mask freq direction
  | .setTargetDelta mask freq target => bodySetTargetDelta mask freq target
  | .getDeltaSteps mask => bodyGetDeltaSteps mask
  | .getImuMeasurement => bodyGetImuMeasurement
  | .setIsrFreq freq => bodySetIsrFreq freq
  | .enableCnc => bodyEnableCnc
  | .disableCnc => bodyDisableCnc
  | .setDeltaSteps mask value => bodySetDeltaSteps mask value
  | .getIsrFreq => bodyGetIsrFreq

/-- The latched command as `DECODE` reads it (R73). -/
def State.decoded (s : State) : Except CommandError Instr := decode s.params.cmdIds s.cmd

/-- `DECODE`, micro-step 0 (R73): failure ends the command (R141), success goes on with the body. -/
def decodeStep (s : State) : State :=
  match s.decoded with
  | .error e => s.raise e
  | .ok i => s.setDisp (.busy 1 (bodyOf i).ops (bodyOf i).fin)

/-- `micro` (R6, R24, R47): one micro-step, which leaves `Busy(k + 1)`, or `Idle` after the last. -/
def microStep (s : State) : Host.Outcome State Fault Refusal :=
  match s.disp with
  | .idle => .fault .dispatcherIdle
  | .busy0 => .next (decodeStep s)
  | .busy _ [] fin => .next (s.complete fin)
  | .busy k (op :: ops) fin =>
    .next ((op.apply s).setDisp (.busy (k + 1) ((op.follow s).map MicroOp.write ++ ops) fin))

/-- The dispatcher's remaining micro-steps with no `tick` between them (log 17): from `Busy(0)` this is
the meaning of the decoded command. -/
def runStep (s : State) : Host.Outcome State Fault Refusal :=
  match s.disp with
  | .idle => .fault .dispatcherIdle
  | .busy0 =>
    match s.decoded with
    | .error e => .next (s.raise e)
    | .ok i => exec i s
  | .busy _ ops fin => .next ((runOps ops s).complete fin)

/-- `submit(id, pay)` (R60): the command is latched whole, before `DECODE` (R53). -/
def submitStep (c : Command) (s : State) : Host.Outcome State Fault Refusal :=
  match s.disp with
  | .idle =>
    if c.fits s.params then .next { s with cmd := c, disp := .busy0 } else .fault .payloadTooLong
  | _ => .fault .submitWhileBusy

/-- The timer interrupt (R144, R146). -/
def tickStep (s : State) : Host.Outcome State Fault Refusal :=
  match tick s with
  | .ok t => .next t
  | .error f => .fault f

/-- `imu_sample` (R161). -/
def sampleStep (frame : Frame) (s : State) : Host.Outcome State Fault Refusal :=
  match s.disp with
  | .idle => .next (s.imuSample frame)
  | _ => .fault .sampleWhileBusy

/-- The step of one event. -/
def stepEvent (e : Event) (s : State) : Host.Outcome State Fault Refusal :=
  match e with
  | .reset deltas => .next (s.powerOn deltas)
  | .submit c => submitStep c s
  | .micro => microStep s
  | .run => runStep s
  | .tick => tickStep s
  | .imuSample frame => sampleStep frame s

/-- The event's agent may take its step (the "enabled when" column of R6). -/
def State.enabled (s : State) : Event → Bool
  | .reset _ => true
  | .submit c => s.disp == .idle && c.fits s.params
  | .micro => s.disp != .idle
  | .run => s.disp != .idle
  | .tick => true
  | .imuSample _ => s.disp == .idle

/-- The event that comes next and the state it meets: the first one scheduled; or, with none scheduled,
a free value, in place of which a `tick`, always enabled, is taken where the value is not enabled. -/
def State.nextEvent (s : State) : Event × State :=
  match s.schedule with
  | e :: es => (e, { s with schedule := es })
  | [] =>
    (if s.enabled (Config.freeEvent s.draws) then Config.freeEvent s.draws else .tick,
      { s with draws := s.draws + 1 })

/-- The events of a list one after another, stopping at the first fault or refusal. -/
def runEvents : List Event → State → Host.Outcome State Fault Refusal
  | [], s => .next s
  | e :: es, s =>
    match stepEvent e s with
    | .next t => runEvents es t
    | .fault f => .fault f
    | .refused r => .refused r

end Sys2Proof.Machine
end

