-- ==== Sys2Proof/Machine/Step.lean ====
section
/-! DEFINITION. One step of the block: the next event's step (R6, R48). The block has no program counter
and fetches nothing (R24); what a fetch is elsewhere is here the latched command of R25. -/

namespace Sys2Proof.Machine

/-- One step: the next event is taken off the schedule, or drawn where none is scheduled, and its agent
takes its step. -/
def step (s : State) : Host.Outcome State Fault Refusal := stepEvent s.nextEvent.1 s.nextEvent.2

/-- `s` with the opcode table's word as the latched command and the dispatcher about to run it: `cmd`
holds it, `disp = Busy(0)`, and `run` is the event scheduled first (log 32). -/
def State.withFetchWord (s : State) (nbits w : Nat) : State :=
  { s with cmd := tableCommand s.params.cmdIds nbits w
           disp := .busy0
           schedule := .run :: s.schedule }

end Sys2Proof.Machine
end

