-- ==== Sys2Proof/Safety.lean ====
section
/-! DEFINITION. What counts as a safe run, in the terms the claims use: the invariant every step keeps,
the discipline of the guard, the host's duties, and what a run is observed by (R190). -/

namespace Sys2Proof

/-- The instruction is one of the four guarded commands (R50). -/
def Instr.isGuarded : Instr → Bool
  | .setTargetFreq _ _ _ => true
  | .setTargetDelta _ _ _ => true
  | .getDeltaSteps _ => true
  | .getImuMeasurement => false
  | .setIsrFreq _ => false
  | .enableCnc => false
  | .disableCnc => false
  | .setDeltaSteps _ _ => true
  | .getIsrFreq => false

/-! ## Host duties (R180) -/

/-- The instruction sends the forbidden rate 0 to an axis (R68, R180 H1). -/
def Instr.sendsZeroFreq : Instr → Bool
  | .setTargetFreq _ freq _ => freq == 0
  | .setTargetDelta _ freq _ => freq == 0
  | .getDeltaSteps _ => false
  | .getImuMeasurement => false
  | .setIsrFreq _ => false
  | .enableCnc => false
  | .disableCnc => false
  | .setDeltaSteps _ _ => false
  | .getIsrFreq => false

/-- The command does not break duty H1 (R180): it fails, or it sends no rate 0. -/
def Command.honoursH1 (ids : CmdIds) (c : Command) : Bool :=
  match decode ids c with
  | .ok i => !i.sendsZeroFreq
  | .error _ => true

/-- The event does not break duty H1. -/
def Event.honoursH1 (ids : CmdIds) : Event → Bool
  | .submit c => c.honoursH1 ids
  | _ => true

end Sys2Proof

namespace Sys2Proof.Machine

/-! ## The discipline of the guard (R49, R51) -/

/-- The write is to the axis register file. -/
def RegWrite.onAxis : RegWrite → Bool
  | .controlMode _ _ => true
  | .targetFreq _ _ => true
  | .direction _ _ => true
  | .targetDelta _ _ => true
  | .clearCounter _ => true
  | .deltaSteps _ _ => true
  | .tickRate _ => false
  | .isrSuspended _ => false
  | .shieldEnabled _ => false

/-- The micro-step reads or writes the axis register file. -/
def MicroOp.onAxis : MicroOp → Bool
  | .acquire => false
  | .release => false
  | .write w => w.onAxis
  | .readTarget _ _ _ => true
  | .respondDelta _ => true
  | .respondRate => false
  | .respondImu => false

/-- The micro-steps to come keep the discipline of the bracket, `held` saying whether the guard is held
before them: the axis file is touched between `ACQUIRE` and `RELEASE` and only there, brackets do not
nest, and a bracket that is open is closed. -/
def bracketed (held : Bool) : List MicroOp → Bool
  | [] => !held
  | .acquire :: ops => !held && bracketed true ops
  | .release :: ops => held && bracketed false ops
  | op :: ops => op.onAxis == held && bracketed held ops

/-- The dispatcher stands between `ACQUIRE` and `RELEASE`: what it has still to do closes an open
bracket. -/
def State.inBracket (s : State) : Bool :=
  match s.disp with
  | .busy _ ops _ => bracketed true ops
  | _ => false

/-- The guard is held whenever the dispatcher stands inside a bracket (R49). -/
def State.guarded (s : State) : Bool :=
  match s.disp with
  | .busy _ ops _ => bracketed false ops || (bracketed true ops && s.isrSuspended)
  | _ => true

/-- The most micro-steps one micro-step can lead to: the read of `set_target_delta` is followed by at
most five writes (R82, R112). -/
def MicroOp.cost : MicroOp → Nat
  | .readTarget _ _ _ => 6
  | _ => 1

/-- The most micro-steps of a list. -/
def opsCost : List MicroOp → Nat
  | [] => 0
  | op :: ops => op.cost + opsCost ops

/-- The longest command has 22 micro-steps (R24, R112): the index of the next one, the ones after it
and `COMPLETE` stay within that. -/
def State.indexBounded (s : State) : Bool :=
  match s.disp with
  | .busy k ops _ => decide (1 ≤ k) && decide (k + opsCost ops + 1 ≤ 22)
  | _ => true

/-! ## The invariant -/

/-- Before every increment `tick_counter <= 65534` (R18). -/
def State.countersBounded (s : State) : Bool :=
  Axis.all.all fun a => decide ((s.axis a).tickCounter.toNat ≤ 65534)

/-- The latched payload is no longer than `MAX_PAYLOAD` (R25, R41). -/
def State.payloadFits (s : State) : Bool := s.cmd.fits s.params

/-- The sampler's window holds `W` frames and `wp` is one of its slots (R160, R161). -/
def State.windowOk (s : State) : Bool :=
  decide (s.imuBuf.length = s.params.imuW) && decide (s.imuWp < s.params.imuW)

/-- The invariant of the block: every step keeps it. -/
abbrev State.Inv (s : State) : Prop :=
  s.countersBounded = true ∧ s.payloadFits = true ∧ s.windowOk = true ∧ s.guarded = true ∧
    s.indexBounded = true

/-! ## What a host that keeps its duties can rely on (R180 H1) -/

/-- The micro-step brings no rate 0 to an axis. -/
def MicroOp.zeroFree : MicroOp → Bool
  | .write (.targetFreq _ f) => f != 0
  | .readTarget _ f _ => f != 0
  | _ => true

/-- What the dispatcher has still to do brings no rate 0 to an axis. -/
def State.pendingZeroFree (s : State) : Bool :=
  match s.disp with
  | .idle => true
  | .busy0 => s.cmd.honoursH1 s.params.cmdIds
  | .busy _ ops _ => ops.all MicroOp.zeroFree

/-- No axis has the rate 0, and the command in progress brings none: what a host that keeps duty H1 can
rely on. -/
def State.zeroFree (s : State) : Bool :=
  (Axis.all.all fun a => (s.axis a).targetFreq != 0) && s.pendingZeroFree

/-- A `tick` has a value (R102, R104): no axis has the rate 0, and either positions wrap or no active
axis stands at the end of the range it moves toward. -/
def State.tickSafe (s : State) : Bool :=
  s.isrSuspended || Axis.all.all fun a =>
    (s.axis a).targetFreq != 0 &&
      (s.params.deltaOverflow == .wrap || !(s.axis a).active ||
        !atRangeEnd (s.axis a).direction (s.axis a).deltaSteps)

/-! ## Observation (R190) -/

/-- The block is quiescent: no command is in progress (R190). -/
def State.quiescent (s : State) : Bool := s.disp == .idle

/-- The axis is at rest (R190). -/
def State.atRest (s : State) (a : Axis) : Bool := !(s.axis a).active

/-- What a run is observed by at a quiescent state (R190). -/
structure Observation where
  trace : List Pulse
  replies : List Reply
  dirOut : PerAxis Bool
  shieldEn : Bool
  tickRateOut : Half
deriving DecidableEq, Repr

/-- The observation of a state (R190). -/
def State.observe (s : State) : Observation :=
  ⟨s.trace, s.replies, s.dirOut, s.shieldEn, s.tickRateOut⟩

/-- The pulses of one axis, oldest first. -/
def pulsesOf (a : Axis) (trace : List Pulse) : List Pulse := trace.filter fun p => p.axis == a

/-- The number of ticks from one pulse to the next (R107): `max(T, 1)`. -/
def period (rate freq : Half) : Nat := max (threshold rate freq).toNat 1

/-- The axis is selected by bit `i` of the mask (R66). -/
def maskBit (mask : Byte) (a : Axis) : Bool := mask.getLsbD a.index

/-- The selected axis with the highest index, the "(last)" of the command table (R120). -/
def lastSelected (mask : Byte) : Option Axis :=
  if maskBit mask .z then some .z
  else if maskBit mask .y then some .y
  else if maskBit mask .x then some .x
  else none

/-- A failed command: `resp.ok <- false; resp.len <- 0; disp <- Idle` and nothing else (R141), and the
failure on the record of responses (R190; log 22). -/
def State.afterFailure (s : State) : State :=
  { s with resp := { s.resp with ok := false, len := .zero }, disp := .idle,
           replies := s.replies ++ [⟨false, []⟩] }

/-- A completed command that returns no bytes: `resp = (true, 0)`, `disp = Idle` (R110), and the
response on the record of responses (R190; log 22). -/
def State.afterNoBytes (s : State) : State :=
  { s with resp := { s.resp with ok := true, len := .zero }, disp := .idle,
           replies := s.replies ++ [⟨true, []⟩] }

/-! ## The number of micro-steps (R110 to R113, R121, R122, R130 to R132; for R120 see log 19) -/

/-- The micro-steps a guarded command spends on one selected axis. -/
def axisMicroCount (i : Instr) (x : AxisState) : Nat :=
  match i with
  | .setTargetFreq _ _ _ => 4
  | .setTargetDelta _ _ target => if target = x.deltaSteps then 4 else 6
  | .getDeltaSteps _ => 1
  | .getImuMeasurement => 0
  | .setIsrFreq _ => 0
  | .enableCnc => 0
  | .disableCnc => 0
  | .setDeltaSteps _ _ => 1
  | .getIsrFreq => 0

/-- The micro-steps a guarded command with this mask spends on its axes. -/
def loopMicroCount (i : Instr) (mask : Byte) (s : State) : Nat :=
  (Axis.all.map fun a => if maskBit mask a then axisMicroCount i (s.axis a) else 0).sum

/-- The micro-steps of a whole command, `DECODE` and `COMPLETE` included, from a state in which no
`tick` falls between them. -/
def microCount (i : Instr) (s : State) : Nat :=
  match i with
  | .setTargetFreq mask _ _ => 4 + loopMicroCount i mask s
  | .setTargetDelta mask _ _ => 4 + loopMicroCount i mask s
  | .getDeltaSteps mask => 4 + loopMicroCount i mask s
  | .getImuMeasurement => 3
  | .setIsrFreq _ => 3
  | .enableCnc => 4
  | .disableCnc => 4
  | .setDeltaSteps mask _ => 4 + loopMicroCount i mask s
  | .getIsrFreq => 3

end Sys2Proof.Machine
end

