-- ==== Sys2Proof/Certificates/Slice0/Obligations.lean ====
section
/-! DEFINITION. The statements about the model, one `def Obligations.<Name> : Prop` each. A docstring
names the rules a statement formalises and, where it rests on a decision or an inference the spec marks
as its own or on a choice of this model, says so (`D<n>` of `92_eei_decisions.md`, `log <n>` of
`notes/assumptions/`). `State.replies` is the record of responses of log 22. -/

open Sys2Proof Sys2Proof.Machine

/-! ## Reset -/

/-- `reset(INITIAL_DELTAS)` from any state (R170, R80): the axis registers `init` writes, the three OPEN
control registers from the parameters (D6, D7, D8), the dispatcher idle, the pulse trace empty. That the
parameters and the schedule stay is the model's (log 2, log 15). -/
def Obligations.PowerCycleGivesResetValues : Prop :=
  ∀ (s : State) (deltas : PerAxis Word), ∃ t, stepEvent (.reset deltas) s = .next t ∧
    (∀ a, (t.axis a).controlMode = .frequencyControl ∧ (t.axis a).targetFreq = 65535#16 ∧
      (t.axis a).direction = true ∧ (t.axis a).tickCounter = 0#16 ∧
      (t.axis a).deltaSteps = deltas.get a) ∧
    t.tickRate = s.params.tickRateReset ∧ t.isrSuspended = s.params.resetSuspended ∧
    t.shieldEnabled = s.params.resetShieldEn ∧ t.disp = .idle ∧ t.trace = [] ∧
    t.params = s.params ∧ t.schedule = s.schedule

/-- `State.reset` holds the values R31 gives after power-on; the values this model named itself (log 3
and log 6 to log 10) are not in the statement. -/
def Obligations.ResetStateHoldsGivenValues : Prop :=
  (∀ a, (State.reset.axis a).controlMode = .frequencyControl ∧
    (State.reset.axis a).targetFreq = 65535#16 ∧ (State.reset.axis a).direction = true ∧
    (State.reset.axis a).tickCounter = 0#16 ∧ getSelectFlag a = 1#8 <<< a.index) ∧
  State.reset.disp = .idle ∧ State.reset.trace = [] ∧
  State.reset.isrSuspended = State.reset.params.resetSuspended ∧
  State.reset.shieldEnabled = State.reset.params.resetShieldEn ∧
  State.reset.tickRate = State.reset.params.tickRateReset

/-- `State.reset` meets the invariant that every step keeps, and sends no rate 0 to an axis. -/
def Obligations.ResetMeetsInvariant : Prop :=
  State.reset.Inv ∧ State.reset.zeroFree = true ∧ State.reset.params.wellFormed = true

/-- After power-on any number of ticks changes nothing, whatever the OPEN parameters (R172, an inference
the spec marks as derived). -/
def Obligations.TicksAfterResetChangeNothing : Prop :=
  ∀ (s : State) (deltas : PerAxis Word) (n : Nat), ∃ t, stepEvent (.reset deltas) s = .next t ∧
    runEvents (List.replicate n .tick) t = .next t

/-! ## Steps and events -/

/-- A step with `run` scheduled first and a command at `Busy(0)` that decodes to `i` is `exec i`, on the
state with the event taken off the schedule; and this is what `withFetchWord` sets up. The event `run`
and the schedule are the model's (log 15, log 17, log 32). -/
def Obligations.StepRunsDecodedCommand : Prop :=
  (∀ (s : State) (i : Instr) (es : List Event), s.schedule = .run :: es → s.disp = .busy0 →
    decode s.params.cmdIds s.cmd = .ok i → step s = exec i { s with schedule := es }) ∧
  (∀ (s : State) (nbits w : Nat) (i : Instr),
    decode s.params.cmdIds (tableCommand s.params.cmdIds nbits w) = .ok i →
    step (s.withFetchWord nbits w) =
      exec i { s with cmd := tableCommand s.params.cmdIds nbits w, disp := .busy0 })

/-- One step is the step of the first event scheduled, and, where none is scheduled, of some event that
R6 enables (log 15). -/
def Obligations.StepTakesNextEvent : Prop :=
  (∀ (s : State) (e : Event) (es : List Event), s.schedule = e :: es →
    step s = stepEvent e { s with schedule := es }) ∧
  (∀ s : State, s.schedule = [] → ∃ e, s.enabled e = true ∧
    step s = stepEvent e { s with draws := s.draws + 1 })

/-- An event answers a next state only where R6 enables it: a second command, a micro-step of no
command and a sample during a command stop by name (log 16; the event `run` is log 17). -/
def Obligations.DisabledEventsStopByName : Prop :=
  (∀ (s : State) (c : Command), s.disp ≠ .idle →
    stepEvent (.submit c) s = .fault .submitWhileBusy) ∧
  (∀ (s : State) (c : Command), s.disp = .idle → s.params.maxPayload < c.pay.length →
    stepEvent (.submit c) s = .fault .payloadTooLong) ∧
  (∀ s : State, s.disp = .idle → stepEvent .micro s = .fault .dispatcherIdle ∧
    stepEvent .run s = .fault .dispatcherIdle) ∧
  (∀ (s : State) (f : Frame), s.disp ≠ .idle →
    stepEvent (.imuSample f) s = .fault .sampleWhileBusy)

/-- A scheduled event that R6 enables is taken: the step answers a next state, for a `tick` where no
axis holds the rate 0 and no position overflow is a fault (R102, R104). The schedule and the event `run`
are the model's (log 15, log 17). -/
def Obligations.EnabledEventsAreTaken : Prop :=
  ∀ (s : State) (e : Event) (es : List Event), s.schedule = e :: es → s.enabled e = true →
    (e = .tick → s.tickSafe = true) → ∃ t, step s = .next t ∧ t.schedule = es

/-- No step is refused: every command and every event has its meaning. -/
def Obligations.StepNeverRefuses : Prop :=
  ∀ (s : State) (r : Refusal), step s ≠ .refused r

/-- `submit` latches the command whole and starts the dispatcher, and only while it is idle (R60). -/
def Obligations.SubmitLatchesCommand : Prop :=
  ∀ (s : State) (c : Command),
    (s.disp = .idle → c.pay.length ≤ s.params.maxPayload →
      stepEvent (.submit c) s = .next { s with cmd := c, disp := .busy0 }) ∧
    (∀ t, stepEvent (.submit c) s = .next t → s.disp = .idle)

/-- The bytes of a command do not change while it executes: only `submit` and a power cycle write `cmd`
(R25, R53). -/
def Obligations.CommandStaysLatched : Prop :=
  ∀ (s t : State) (e : Event), stepEvent e s = .next t → (∀ c, e ≠ .submit c) →
    (∀ d, e ≠ .reset d) → t.cmd = s.cmd

/-- No step writes a parameter (R5; log 2). -/
def Obligations.ParametersNeverChange : Prop :=
  ∀ s t : State, step s = .next t → t.params = s.params

/-! ## Encoding -/

/-- Words written out from the formats of R64 in the reference ids of R63 decode to the commands they
stand for (vectors V1, V3, V7, V8, V11, V13, V14, V17, V18, V21, V22). -/
def Obligations.SpecWordsDecode : Prop :=
  decode .reference ⟨0x00, [0x05, 0xFA, 0x00, 0x01]⟩ = .ok (.setTargetFreq 5 250 1) ∧
  decode .reference ⟨0x00, [0xFF, 0x01, 0x00, 0x02]⟩ = .ok (.setTargetFreq 255 1 2) ∧
  decode .reference ⟨0x01, [0x02, 0xE8, 0x03, 0x02, 0x00, 0x00, 0x00]⟩ =
    .ok (.setTargetDelta 2 1000 2) ∧
  decode .reference ⟨0x01, [0x04, 0xFF, 0xFF, 0x00, 0x00, 0x00, 0x80]⟩ =
    .ok (.setTargetDelta 4 65535 (BitVec.ofInt 32 (-2147483648))) ∧
  decode .reference ⟨0x02, [0x01]⟩ = .ok (.getDeltaSteps 1) ∧
  decode .reference ⟨0x03, []⟩ = .ok .getImuMeasurement ∧
  decode .reference ⟨0x04, [0xE8, 0x03]⟩ = .ok (.setIsrFreq 1000) ∧
  decode .reference ⟨0x05, []⟩ = .ok .enableCnc ∧
  decode .reference ⟨0x06, []⟩ = .ok .disableCnc ∧
  decode .reference ⟨0x07, [0x01, 0x00, 0x01, 0x00, 0x00]⟩ = .ok (.setDeltaSteps 1 256) ∧
  decode .reference ⟨0x08, []⟩ = .ok .getIsrFreq

/-- Decoding an encoded instruction gives it back, for every assignment of ids that is injective (R63)
and every value of every field (R64, R65). -/
def Obligations.DecodeOfEncodeIsIdentity : Prop :=
  ∀ (ids : CmdIds) (i : Instr), ids.injective = true → decode ids (encode ids i) = .ok i

/-- Encoding a decoded command gives its bytes back: no two commands decode to one instruction, and no
bit of a payload is dropped (R61, R64, R75). -/
def Obligations.EncodeOfDecodeIsIdentity : Prop :=
  ∀ (ids : CmdIds) (c : Command) (i : Instr), decode ids c = .ok i → encode ids i = c

/-- A command of a known id and the right length succeeds whatever its field values (R142, the spec's own
resolution of its conflict C1). That the whole command is the one event `run` is the model's (log 17),
and so is the record of responses, which grows by one (log 22). -/
def Obligations.KnownIdAndLengthAlwaysSucceeds : Prop :=
  ∀ (s : State) (c : Opcode), s.params.cmdIds.injective = true → s.disp = .busy0 →
    s.cmd.id = s.params.cmdIds.get c → s.cmd.pay.length = c.size →
    ∃ t, stepEvent .run s = .next t ∧ t.resp.ok = true ∧ t.disp = .idle ∧
      t.replies.length = s.replies.length + 1

/-- An id of no command ends the command at `DECODE` with failure and no other write (R69). That a failure
is added to the record of responses (`afterFailure`) is the model's (log 22), and so is the event `run`
of the second clause (log 17). -/
def Obligations.UnknownIdFailsAndWritesNothing : Prop :=
  ∀ s : State, s.disp = .busy0 → (∀ c : Opcode, s.params.cmdIds.get c ≠ s.cmd.id) →
    stepEvent .micro s = .next s.afterFailure ∧ stepEvent .run s = .next s.afterFailure

/-- A known id with a payload shorter or longer than its fixed size ends the command at `DECODE` with
failure and no other write (R70); the ids are injective (R63). Which error `DECODE` raises is not in the
statement: both are reported alike. That a failure is added to the record of responses (`afterFailure`)
is the model's (log 22), and so is the event `run` of the second clause (log 17). -/
def Obligations.WrongLengthFailsAndWritesNothing : Prop :=
  ∀ (s : State) (c : Opcode), s.params.cmdIds.injective = true → s.disp = .busy0 →
    s.cmd.id = s.params.cmdIds.get c → s.cmd.pay.length ≠ c.size →
    stepEvent .micro s = .next s.afterFailure ∧ stepEvent .run s = .next s.afterFailure

/-- Both errors of `DECODE` write `resp.ok`, `resp.len` and `disp`, and nothing else of the block (R141).
That the failure is added to the record of responses (`afterFailure`) is the model's (log 22), and so is
the event `run` of the second clause (log 17). -/
def Obligations.FailedCommandWritesOnlyResponse : Prop :=
  ∀ (s : State) (e : CommandError), s.disp = .busy0 → decode s.params.cmdIds s.cmd = .error e →
    stepEvent .micro s = .next s.afterFailure ∧ stepEvent .run s = .next s.afterFailure

/-! ## PulseEngine operations -/

/-- The accessors `get_delta_steps`, `get_select_flag` and `axis_count` (R84, R88, R89). -/
def Obligations.EngineAccessorsReadTheirRegisters : Prop :=
  (∀ (s : State) (a : Axis), s.getDeltaSteps a = (s.axis a).deltaSteps) ∧
  getSelectFlag .x = 1#8 ∧ getSelectFlag .y = 2#8 ∧ getSelectFlag .z = 4#8 ∧ axisCount = 3

/-- `set_target_freq` writes four registers of its axis and nothing else (R81); 65535 makes the axis
inactive, 0 is stored and faults at the axis's next unsuspended tick (the fault is the spec's decision
D16; log 23). -/
def Obligations.SetTargetFreqWritesFourRegisters : Prop :=
  ∀ (s : State) (a : Axis) (f : Half) (d : Bool),
    (s.setTargetFreq a f d).axis a =
      { s.axis a with controlMode := .frequencyControl, targetFreq := f, direction := d,
                      tickCounter := 0#16 } ∧
    (∀ b, b ≠ a → (s.setTargetFreq a f d).axis b = s.axis b) ∧
    s.setTargetFreq a f d = { s with axes := (s.setTargetFreq a f d).axes } ∧
    (f = 65535#16 → axisTick a (s.setTargetFreq a f d) = .ok (s.setTargetFreq a f d)) ∧
    (f = 0#16 → axisTick a (s.setTargetFreq a f d) = .error .divideByZero)

/-- `set_target_delta` (R82): the cancel branch stops the axis at once and keeps `target_delta` and
`direction` (the spec's decision D28), the other branch moves toward the target in the direction of the
exact signed comparison. -/
def Obligations.SetTargetDeltaCancelsOrMoves : Prop :=
  ∀ (s : State) (a : Axis) (f : Half) (t : Word),
    (t = (s.axis a).deltaSteps → (s.setTargetDelta a f t).axis a =
      { s.axis a with controlMode := .frequencyControl, targetFreq := 65535#16,
                      tickCounter := 0#16 }) ∧
    (t ≠ (s.axis a).deltaSteps → (s.setTargetDelta a f t).axis a =
      { s.axis a with controlMode := .deltaControl, targetDelta := t, targetFreq := f,
                      direction := decide ((s.axis a).deltaSteps.toInt < t.toInt),
                      tickCounter := 0#16 }) ∧
    (∀ b, b ≠ a → (s.setTargetDelta a f t).axis b = s.axis b) ∧
    s.setTargetDelta a f t = { s with axes := (s.setTargetDelta a f t).axes }

/-- `set_delta_steps` writes the position counter of its axis and nothing else (R83). -/
def Obligations.SetDeltaStepsWritesPositionOnly : Prop :=
  ∀ (s : State) (a : Axis) (v : Word),
    (s.setDeltaSteps a v).axis a = { s.axis a with deltaSteps := v } ∧
    (∀ b, b ≠ a → (s.setDeltaSteps a v).axis b = s.axis b) ∧
    s.setDeltaSteps a v = { s with axes := (s.setDeltaSteps a v).axes }

/-- `suspend_isr` is one write with no depth: the last value written stands, and while it is `true` any
number of ticks changes nothing (R87). -/
def Obligations.SuspendIsrHasNoDepth : Prop :=
  ∀ (s : State) (b c : Bool),
    s.suspendIsr b = { s with isrSuspended := b } ∧
    (s.suspendIsr b).suspendIsr c = s.suspendIsr c ∧
    ∀ n, runEvents (List.replicate n .tick) (s.suspendIsr true) = .next (s.suspendIsr true)

/-- `set_tick_rate` writes `tick_rate` and touches no axis (R85), `get_tick_rate` returns exactly the
last value written (R86, the spec's decision D26), and with the rate 0 every active axis pulses at every
tick (R85, an inference the spec marks as derived). -/
def Obligations.TickRateIsStoredAsGiven : Prop :=
  (∀ (s : State) (r : Half), s.setTickRate r = { s with tickRate := r } ∧
    (s.setTickRate r).getTickRate = r) ∧
  (∀ (s : State) (a : Axis), (s.axis a).targetFreq ≠ 65535#16 → (s.axis a).targetFreq ≠ 0#16 →
    s.params.deltaOverflow = .wrap → ∃ t, axisTick a (s.setTickRate 0#16) = .ok t ∧
      t.trace = s.trace ++ [⟨a, (s.axis a).direction⟩])

/-! ## Commands: completion, result and frame

Each says that `exec`, which is the whole command at once (log 17), answers a next state for every state
and every operand, with its response on the record of responses (log 22). The next state is given as
the state before with the named fields changed, so everything not named is unchanged. -/

/-- `SET_TARGET_FREQ` (R111, R81): exactly the selected axes get the four registers; mask bits 7:3 select
nothing (the spec's decision D19), and the guard ends released (D10). That every byte but 0 is the
positive direction is D18, and the spec says not to rest a claim on the bytes 2 to 255 (R67; log 24).
That `exec` is the whole command is the model's (log 17). -/
def Obligations.SetTargetFreqCompletes : Prop :=
  ∀ (mask : Byte) (freq : Half) (direction : Byte) (s : State), ∃ t,
    exec (.setTargetFreq mask freq direction) s = .next t ∧
    t = { s.afterNoBytes with axes := t.axes, isrSuspended := false } ∧
    ∀ a, t.axis a =
      if mask.getLsbD a.index then
        { s.axis a with controlMode := .frequencyControl, targetFreq := freq,
                        direction := decide (direction ≠ 0#8), tickCounter := 0#16 }
      else s.axis a

/-- `SET_TARGET_DELTA` (R112, R82): each selected axis cancels or moves by its own position; mask bits 7:3
select nothing (D19), the guard ends released (D10), the cancel branch keeps `target_delta` and
`direction` (D28), and the comparison is of two's complement values (general knowledge G1; log 26). -/
def Obligations.SetTargetDeltaCompletes : Prop :=
  ∀ (mask : Byte) (freq : Half) (target : Word) (s : State), ∃ t,
    exec (.setTargetDelta mask freq target) s = .next t ∧
    t = { s.afterNoBytes with axes := t.axes, isrSuspended := false } ∧
    ∀ a, t.axis a =
      if mask.getLsbD a.index then
        if target = (s.axis a).deltaSteps then
          { s.axis a with controlMode := .frequencyControl, targetFreq := 65535#16,
                          tickCounter := 0#16 }
        else
          { s.axis a with controlMode := .deltaControl, targetDelta := target, targetFreq := freq,
                          direction := decide ((s.axis a).deltaSteps.toInt < target.toInt),
                          tickCounter := 0#16 }
      else s.axis a

/-- `SET_DELTA_STEPS` (R113, R83): exactly the selected axes' positions are overwritten, and no other
register of them; mask bits 7:3 select nothing (D19), and the guard ends released (D10). -/
def Obligations.SetDeltaStepsCompletes : Prop :=
  ∀ (mask : Byte) (value : Word) (s : State), ∃ t,
    exec (.setDeltaSteps mask value) s = .next t ∧
    t = { s.afterNoBytes with axes := t.axes, isrSuspended := false } ∧
    ∀ a, t.axis a =
      if mask.getLsbD a.index then { s.axis a with deltaSteps := value } else s.axis a

/-- `GET_DELTA_STEPS` with an axis selected (R120, R71): the position of the last selected axis, least
significant byte first (D21); no register but the guard, released at the end (D10), changes. That the
buffer keeps its other bytes is the model's: the host finds free values there (R26, log 21). -/
def Obligations.GetDeltaStepsReturnsLastSelected : Prop :=
  ∀ (mask : Byte) (s : State) (a : Axis), lastSelected mask = some a → ∃ t,
    exec (.getDeltaSteps mask) s = .next t ∧
    t = { s with
          isrSuspended := false
          resp := { ok := true, len := .four, buf := t.resp.buf }
          disp := .idle
          replies := s.replies ++
            [⟨true, [(s.axis a).deltaSteps.extractLsb' 0 8, (s.axis a).deltaSteps.extractLsb' 8 8,
                     (s.axis a).deltaSteps.extractLsb' 16 8,
                     (s.axis a).deltaSteps.extractLsb' 24 8]⟩] } ∧
    ∀ (j : Nat) (h : j < 18), t.resp.buf[j] =
      if j < 4 then (s.axis a).deltaSteps.extractLsb' (8 * j) 8 else s.resp.buf[j]

/-- `GET_DELTA_STEPS` with no axis selected (R120, the spec's decision D20): it succeeds with four bytes
of which nothing is said (a draw, log 20); no axis is read or written. The other bytes of the buffer
are as in the statement above (log 21). -/
def Obligations.GetDeltaStepsWithNoAxisSucceeds : Prop :=
  ∀ (mask : Byte) (s : State), lastSelected mask = none → ∃ t,
    exec (.getDeltaSteps mask) s = .next t ∧
    t = { s with
          isrSuspended := false
          resp := { ok := true, len := .four, buf := t.resp.buf }
          disp := .idle
          replies := s.replies ++ [⟨true, t.resp.buf.toList.take 4⟩]
          draws := s.draws + 1 } ∧
    ∀ (j : Nat) (h : j < 18), 4 ≤ j → t.resp.buf[j] = s.resp.buf[j]

/-- `GET_ISR_FREQ` (R121, R71): the rate, low byte first, then two zero bytes (D21); no register
changes. The other bytes of the buffer are as in the statements above (log 21). -/
def Obligations.GetIsrFreqCompletes : Prop :=
  ∀ s : State, ∃ t, exec .getIsrFreq s = .next t ∧
    t = { s with
          resp := { ok := true, len := .four, buf := t.resp.buf }
          disp := .idle
          replies := s.replies ++
            [⟨true, [s.tickRate.extractLsb' 0 8, s.tickRate.extractLsb' 8 8, 0#8, 0#8]⟩] } ∧
    ∀ (j : Nat) (h : j < 18), t.resp.buf[j] =
      if j < 2 then s.tickRate.extractLsb' (8 * j) 8 else if j < 4 then 0#8 else s.resp.buf[j]

/-- `GET_IMU_MEASUREMENT` (R122, R71): channel `k` of `imu_avg` at bytes `2k` and `2k + 1`, low byte
first (D21), in the order ax, ay, az, gx, gy, gz, mx, my, mz; no register changes. -/
def Obligations.GetImuMeasurementCompletes : Prop :=
  ∀ s : State, ∃ t, exec .getImuMeasurement s = .next t ∧
    t = { s with
          resp := { ok := true, len := .eighteen, buf := t.resp.buf }
          disp := .idle
          replies := s.replies ++ [⟨true, t.resp.buf.toList⟩] } ∧
    ∀ (k : Nat) (c : Channel),
      [Channel.ax, .ay, .az, .gx, .gy, .gz, .mx, .my, .mz][k]? = some c →
      t.resp.buf.toList[2 * k]? = some ((s.imuAvg.get c).extractLsb' 0 8) ∧
      t.resp.buf.toList[2 * k + 1]? = some ((s.imuAvg.get c).extractLsb' 8 8)

/-- `SET_ISR_FREQ` (R130, R85): `tick_rate` is the value sent, 0 included; no axis register and not the
guard changes. -/
def Obligations.SetIsrFreqCompletes : Prop :=
  ∀ (freq : Half) (s : State),
    exec (.setIsrFreq freq) s = .next { s.afterNoBytes with tickRate := freq }

/-- `ENABLE_CNC` (R131, D25): the shield enabled, the suspend cleared, no axis register changed. -/
def Obligations.EnableCncCompletes : Prop :=
  ∀ s : State, exec .enableCnc s =
    .next { s.afterNoBytes with shieldEnabled := true, isrSuspended := false }

/-- `DISABLE_CNC` (R132): the engine suspended, the shield disabled, no axis register changed; any number
of ticks after it changes nothing. -/
def Obligations.DisableCncStopsTheEngine : Prop :=
  ∀ s : State,
    exec .disableCnc s = .next { s.afterNoBytes with isrSuspended := true, shieldEnabled := false } ∧
    ∀ n, runEvents (List.replicate n .tick)
        { s.afterNoBytes with isrSuspended := true, shieldEnabled := false } =
      .next { s.afterNoBytes with isrSuspended := true, shieldEnabled := false }

/-- `GET_ISR_FREQ` after `SET_ISR_FREQ v` returns bytes that read back as `v`, exactly (R121, R86; the
spec's decisions D21 and D26). -/
def Obligations.IsrFreqRoundTripIsExact : Prop :=
  ∀ (v : Half) (s : State), ∃ t u bytes, exec (.setIsrFreq v) s = .next t ∧
    exec .getIsrFreq t = .next u ∧ u.replies = t.replies ++ [⟨true, bytes⟩] ∧ bytes.length = 4 ∧
    payHalf bytes 0 = v ∧ payHalf bytes 2 = 0#16

/-- Every guarded command ends with the suspend cleared and leaves the shield as it was, so it undoes the
stop of `DISABLE_CNC`; the three unguarded commands that do not write the suspend leave it alone (R183,
R49, R50; the spec's decisions D10 and D11). -/
def Obligations.GuardedCommandClearsGlobalStop : Prop :=
  ∀ (i : Instr) (s : State), ∃ t, exec i s = .next t ∧
    (i.isGuarded = true → t.isrSuspended = false ∧ t.shieldEnabled = s.shieldEnabled) ∧
    (i.isGuarded = false → i ≠ .enableCnc → i ≠ .disableCnc →
      t.isrSuspended = s.isrSuspended ∧ t.shieldEnabled = s.shieldEnabled)

/-- What no command writes, and which commands alone write each register (R13 to R22): `tick_rate` only
`SET_ISR_FREQ`, the shield only `ENABLE_CNC` and `DISABLE_CNC`, a position only `SET_DELTA_STEPS`, the
other axis registers only the two target commands. -/
def Obligations.EachRegisterHasItsOwnWriters : Prop :=
  ∀ (i : Instr) (s t : State), exec i s = .next t →
    (t.params = s.params ∧ t.cmd = s.cmd ∧ t.dirOut = s.dirOut ∧ t.trace = s.trace ∧
      t.imuBuf = s.imuBuf ∧ t.imuWp = s.imuWp ∧ t.schedule = s.schedule ∧ t.disp = .idle) ∧
    ((∀ f, i ≠ .setIsrFreq f) → t.tickRate = s.tickRate) ∧
    (i ≠ .enableCnc → i ≠ .disableCnc → t.shieldEnabled = s.shieldEnabled) ∧
    ((∀ m v, i ≠ .setDeltaSteps m v) → ∀ a, (t.axis a).deltaSteps = (s.axis a).deltaSteps) ∧
    ((∀ m f d, i ≠ .setTargetFreq m f d) → (∀ m f d, i ≠ .setTargetDelta m f d) →
      ∀ a, (t.axis a).controlMode = (s.axis a).controlMode ∧
        (t.axis a).targetFreq = (s.axis a).targetFreq ∧
        (t.axis a).direction = (s.axis a).direction ∧
        (t.axis a).targetDelta = (s.axis a).targetDelta ∧
        (t.axis a).tickCounter = (s.axis a).tickCounter)

/-! ## The pulse scheduler -/

/-- A tick while suspended changes nothing and is not remembered (R100, R52; the spec's decision D13). -/
def Obligations.SuspendedTickChangesNothing : Prop :=
  ∀ s : State, s.isrSuspended = true → stepEvent .tick s = .next s

/-- `axis_tick` (R101, R102): an inactive axis is skipped untouched; the rate 0 faults (D16; log 23);
otherwise the counter counts up to the threshold, and at the threshold a pulse is emitted, the counter
restarts, the position moves, and on arrival the axis stops. The premise on the counter is part of the
invariant (R18); positions wrap here (D17; log 14). -/
def Obligations.AxisTickCountsThenPulses : Prop :=
  ∀ (s : State) (a : Axis),
    ((s.axis a).targetFreq = 65535#16 → axisTick a s = .ok s) ∧
    ((s.axis a).targetFreq = 0#16 → axisTick a s = .error .divideByZero) ∧
    ((s.axis a).targetFreq ≠ 65535#16 → (s.axis a).targetFreq ≠ 0#16 →
      (s.axis a).tickCounter.toNat ≤ 65534 →
      ((s.axis a).tickCounter.toNat + 1 < s.tickRate.toNat / (s.axis a).targetFreq.toNat →
        axisTick a s = .ok (s.setAxis a
          { s.axis a with tickCounter := (s.axis a).tickCounter + 1#16 })) ∧
      (s.tickRate.toNat / (s.axis a).targetFreq.toNat ≤ (s.axis a).tickCounter.toNat + 1 →
        s.params.deltaOverflow = .wrap →
        ∃ t, axisTick a s = .ok t ∧
          t = { s with axes := s.axes.set a (t.axis a)
                       dirOut := s.dirOut.set a (s.axis a).direction
                       trace := s.trace ++ [⟨a, (s.axis a).direction⟩] } ∧
          ∀ p, p = (if (s.axis a).direction then (s.axis a).deltaSteps + 1#32
              else (s.axis a).deltaSteps - 1#32) →
            t.axis a =
              if (s.axis a).controlMode = .deltaControl ∧ p = (s.axis a).targetDelta then
                { s.axis a with tickCounter := 0#16, deltaSteps := p,
                                controlMode := .frequencyControl, targetFreq := 65535#16 }
              else { s.axis a with tickCounter := 0#16, deltaSteps := p }))

/-- Arrival (R105): in the tick whose pulse makes the position equal to the target, the axis leaves
`DeltaControl` and becomes inactive, and from the next tick on it is skipped; without equality neither
changes. The position moves by one modulo 2^32, which at an end of the range is the spec's decision D17
(log 14). -/
def Obligations.ArrivalStopsTheAxisInTheSameTick : Prop :=
  ∀ (s t : State) (a : Axis), axisTick a s = .ok t → t.trace ≠ s.trace →
    (t.axis a).deltaSteps = (s.axis a).deltaSteps + (if (s.axis a).direction then 1#32 else -1#32) ∧
    (t.axis a).tickCounter = 0#16 ∧ (t.axis a).direction = (s.axis a).direction ∧
    (t.axis a).targetDelta = (s.axis a).targetDelta ∧ t.dirOut.get a = (s.axis a).direction ∧
    ((s.axis a).controlMode = .deltaControl → (t.axis a).deltaSteps = (s.axis a).targetDelta →
      (t.axis a).controlMode = .frequencyControl ∧ (t.axis a).targetFreq = 65535#16 ∧
      axisTick a t = .ok t) ∧
    (¬ ((s.axis a).controlMode = .deltaControl ∧ (t.axis a).deltaSteps = (s.axis a).targetDelta) →
      (t.axis a).controlMode = (s.axis a).controlMode ∧
      (t.axis a).targetFreq = (s.axis a).targetFreq)

/-- A pulse moves the position by one in the integers, except at an end of the `int32` range, where it
wraps or faults as `DELTA_OVERFLOW` says (R104; the spec's decision D17 and general knowledge G3). -/
def Obligations.PositionStepsByOneOrOverflows : Prop :=
  ∀ (s : State) (a : Axis), (s.axis a).targetFreq ≠ 65535#16 → (s.axis a).targetFreq ≠ 0#16 →
    (s.axis a).tickCounter.toNat ≤ 65534 →
    s.tickRate.toNat / (s.axis a).targetFreq.toNat ≤ (s.axis a).tickCounter.toNat + 1 →
    ∀ q : Int, q = (s.axis a).deltaSteps.toInt + (if (s.axis a).direction then 1 else -1) →
    (-2147483648 ≤ q → q ≤ 2147483647 →
      ∃ t, axisTick a s = .ok t ∧ (t.axis a).deltaSteps.toInt = q) ∧
    (q = 2147483648 → s.params.deltaOverflow = .wrap →
      ∃ t, axisTick a s = .ok t ∧ (t.axis a).deltaSteps.toInt = -2147483648) ∧
    (q = -2147483649 → s.params.deltaOverflow = .wrap →
      ∃ t, axisTick a s = .ok t ∧ (t.axis a).deltaSteps.toInt = 2147483647) ∧
    (q < -2147483648 ∨ 2147483647 < q → s.params.deltaOverflow = .fault →
      axisTick a s = .error .deltaOverflow)

/-- The first unsuspended tick that finds an axis with the rate 0 faults (R102, R143, R181; the spec's
decision D16; log 23), whichever axis it is; positions wrap, so no other fault comes first. -/
def Obligations.ZeroRateFaultsAtUnsuspendedTick : Prop :=
  ∀ (s : State) (a : Axis), s.isrSuspended = false → s.params.deltaOverflow = .wrap →
    (s.axis a).targetFreq = 0#16 → stepEvent .tick s = .fault .divideByZero

/-- What a tick leaves unchanged (R148, R150): everything but the axis file, `dir_out` and the trace, and
in the axis file every `direction` and `target_delta`. -/
def Obligations.TickWritesOnlyAxesAndOutputs : Prop :=
  ∀ s t : State, stepEvent .tick s = .next t →
    t = { s with axes := t.axes, dirOut := t.dirOut, trace := t.trace } ∧
    ∀ a, (t.axis a).direction = (s.axis a).direction ∧
      (t.axis a).targetDelta = (s.axis a).targetDelta

/-- The axes are independent, and the pulses of one tick stand in the order X, Y, Z (R100; the order is
the spec's decision D14). -/
def Obligations.TickServesAxesIndependently : Prop :=
  ∀ s t : State, s.isrSuspended = false → tick s = .ok t →
    ∃ tx ty tz px py pz, axisTick .x s = .ok tx ∧ axisTick .y s = .ok ty ∧ axisTick .z s = .ok tz ∧
      t.axes = ⟨tx.axes.x, ty.axes.y, tz.axes.z⟩ ∧
      t.dirOut = ⟨tx.dirOut.x, ty.dirOut.y, tz.dirOut.z⟩ ∧
      tx.trace = s.trace ++ px ∧ ty.trace = s.trace ++ py ∧ tz.trace = s.trace ++ pz ∧
      t.trace = s.trace ++ (px ++ py ++ pz)

/-- One pulse is one step, counted once (R103; the spec's decision D15): in one tick each axis either
emits no pulse and keeps its position and its direction line, or emits one pulse in its direction, moves
one step that way and drives the line so. -/
def Obligations.EveryPulseIsCountedOnce : Prop :=
  ∀ s t : State, stepEvent .tick s = .next t → ∃ ps, t.trace = s.trace ++ ps ∧ ps.length ≤ 3 ∧
    ∀ a, (pulsesOf a ps = [] ∧ (t.axis a).deltaSteps = (s.axis a).deltaSteps ∧
        t.dirOut.get a = s.dirOut.get a) ∨
      (pulsesOf a ps = [⟨a, (s.axis a).direction⟩] ∧
        (t.axis a).deltaSteps =
          (s.axis a).deltaSteps + (if (s.axis a).direction then 1#32 else -1#32) ∧
        t.dirOut.get a = (s.axis a).direction)

/-- Only `tick` emits pulses, and only a power cycle takes any away (R27). -/
def Obligations.OnlyTickEmitsPulses : Prop :=
  ∀ (s t : State) (e : Event), stepEvent e s = .next t → (∀ d, e ≠ .reset d) → e ≠ .tick →
    t.trace = s.trace ∧ t.dirOut = s.dirOut

/-- A position on or beyond the target, seen in the axis's direction, moves away from it and the axis
does not stop (R182, R184; R184 is an inference the spec marks as derived). -/
def Obligations.StaleDirectionMovesAway : Prop :=
  ∀ (s t : State) (a : Axis), axisTick a s = .ok t → t.trace ≠ s.trace →
    (s.axis a).controlMode = .deltaControl →
    ((s.axis a).direction = true → (s.axis a).targetDelta.toInt ≤ (s.axis a).deltaSteps.toInt →
      (s.axis a).deltaSteps.toInt < 2147483647 →
      (t.axis a).targetDelta.toInt < (t.axis a).deltaSteps.toInt ∧
      (t.axis a).controlMode = .deltaControl ∧ (t.axis a).targetFreq = (s.axis a).targetFreq) ∧
    ((s.axis a).direction = false → (s.axis a).deltaSteps.toInt ≤ (s.axis a).targetDelta.toInt →
      -2147483648 < (s.axis a).deltaSteps.toInt →
      (t.axis a).deltaSteps.toInt < (t.axis a).targetDelta.toInt ∧
      (t.axis a).controlMode = .deltaControl ∧ (t.axis a).targetFreq = (s.axis a).targetFreq)

/-- Pulse count (R107, an inference the spec marks as derived): from an axis freshly set in
`FrequencyControl`, `N` unsuspended ticks emit exactly `N / max(T, 1)` pulses. No axis has the rate 0 and
positions wrap (D17; log 14), so that the ticks have a value. An axis freshly set in `DeltaControl`, and
the other reading of an overflow, are in `SetAxisPulsesExactlyUntilArrival`. -/
def Obligations.FreshAxisPulsesExactly : Prop :=
  ∀ (s : State) (a : Axis) (n : Nat), s.isrSuspended = false → s.params.deltaOverflow = .wrap →
    (∀ b, (s.axis b).targetFreq ≠ 0#16) → (s.axis a).targetFreq ≠ 65535#16 →
    (s.axis a).controlMode = .frequencyControl → (s.axis a).tickCounter = 0#16 →
    ∃ t, runEvents (List.replicate n .tick) s = .next t ∧
      pulsesOf a t.trace = pulsesOf a s.trace ++
        List.replicate (n / period s.tickRate (s.axis a).targetFreq) ⟨a, (s.axis a).direction⟩ ∧
      (t.axis a).tickCounter.toNat = n % period s.tickRate (s.axis a).targetFreq ∧
      (t.axis a).targetFreq = (s.axis a).targetFreq ∧
      (t.axis a).controlMode = .frequencyControl

/-- Travel (R108, an inference the spec marks as derived): an axis set toward a target reaches it after
exactly `|t - p| * max(T, 1)` unsuspended ticks with `|t - p|` pulses in one direction, stops there, and
further ticks emit nothing on it. -/
def Obligations.TravelReachesTargetAndStops : Prop :=
  ∀ (s : State) (a : Axis) (extra : Nat), s.isrSuspended = false → s.params.deltaOverflow = .wrap →
    (∀ b, (s.axis b).targetFreq ≠ 0#16) → (s.axis a).targetFreq ≠ 65535#16 →
    (s.axis a).controlMode = .deltaControl → (s.axis a).tickCounter = 0#16 →
    (s.axis a).targetDelta ≠ (s.axis a).deltaSteps →
    (s.axis a).direction =
      decide ((s.axis a).deltaSteps.toInt < (s.axis a).targetDelta.toInt) →
    ∀ dist : Nat,
      dist = ((s.axis a).targetDelta.toInt - (s.axis a).deltaSteps.toInt).natAbs →
    ∃ t, runEvents (List.replicate (dist * period s.tickRate (s.axis a).targetFreq + extra) .tick)
        s = .next t ∧
      (t.axis a).deltaSteps = (s.axis a).targetDelta ∧
      (t.axis a).controlMode = .frequencyControl ∧ (t.axis a).targetFreq = 65535#16 ∧
      pulsesOf a t.trace = pulsesOf a s.trace ++ List.replicate dist ⟨a, (s.axis a).direction⟩

/-! ## The guard and the micro-steps -/

/-- Inside a bracket the guard is held, so a tick changes nothing: no tick sees a half-applied command
(R49, R51). -/
def Obligations.TickInsideBracketChangesNothing : Prop :=
  ∀ s : State, s.Inv → s.inBracket = true → stepEvent .tick s = .next s

/-- The dispatcher's micro-steps, taken one after another from `Busy(0)`, do what `exec` says, in as many
micro-steps as R110 to R113, R121, R122 and R130 to R132 list, at most 22 (R24), and not before the last
of them is the dispatcher idle. R120 does not count those of `GET_DELTA_STEPS`: that the read of a
register and the write of its response bytes are one micro-step is the model's choice (log 19). That
`exec` is the whole command is the model's (log 17). -/
def Obligations.MicroStepsRefineExec : Prop :=
  ∀ (s : State) (i : Instr), s.disp = .busy0 → decode s.params.cmdIds s.cmd = .ok i →
    runEvents (List.replicate (microCount i s) .micro) s = exec i s ∧ microCount i s ≤ 22 ∧
    ∀ n, n < microCount i s →
      ∃ t, runEvents (List.replicate n .micro) s = .next t ∧ t.disp ≠ .idle

/-- Every command is atomic with respect to `tick` (R47, R48, R51; R51 is an inference the spec marks as
derived): whatever ticks fall between its micro-steps, the outcome is that of some ticks, the whole
command at once (the event `run`, the model's, log 17), and some ticks. -/
def Obligations.CommandsAreAtomicToTicks : Prop :=
  ∀ (s t : State) (es : List Event), s.disp = .busy0 → (∀ e ∈ es, e = .micro ∨ e = .tick) →
    runEvents es s = .next t → t.disp = .idle →
    ∃ n m, n + m ≤ es.length ∧
      runEvents (List.replicate n .tick ++ .run :: List.replicate m .tick) s = .next t

/-! ## Invariants -/

/-- Every step keeps the invariant: every `tick_counter` at most 65534 (R18), the payload within
`MAX_PAYLOAD` (R25), the sampler's window in its form (R160, R161), the guard held inside every bracket
(R49), the micro-step index within 22 (R24). -/
def Obligations.StepKeepsInvariant : Prop :=
  ∀ s t : State, s.Inv → step s = .next t → t.Inv

/-- A host that never sends the rate 0 (R180 H1) never meets the division by zero (R102): the absence of
the rate 0, in the axes and in the command in progress, is kept by every scheduled event that keeps the
duty, and while it holds no step faults with `DivideByZero`. -/
def Obligations.DutifulHostNeverDividesByZero : Prop :=
  ∀ (s : State) (e : Event) (es : List Event), s.zeroFree = true → s.schedule = e :: es →
    e.honoursH1 s.params.cmdIds = true →
    step s ≠ .fault .divideByZero ∧ ∀ t, step s = .next t → t.zeroFree = true

/-! ## The sampler -/

/-- `average()` over a full window is the floor of the mean of each channel, and the narrowing to 16 bits
loses nothing (R160; the second half is an inference the spec marks as derived). -/
def Obligations.AverageIsFloorOfMean : Prop :=
  ∀ (k : Nat) (buf : List Frame) (c : Channel), buf.length = 2 ^ k →
    ((average k buf).get c).toInt = Int.fdiv (buf.map fun f => (f.get c).toInt).sum (2 ^ k)

/-- `sample()` overwrites the slot at `wp` and advances it modulo `W`, while the dispatcher is idle, and
touches nothing of the block (R161; the spec's decision D29). -/
def Obligations.SampleOverwritesOldestSlot : Prop :=
  ∀ (s : State) (f : Frame), s.windowOk = true → s.disp = .idle → ∃ t,
    stepEvent (.imuSample f) s = .next t ∧
    t = { s with imuBuf := t.imuBuf, imuWp := t.imuWp } ∧
    t.imuBuf.length = s.imuBuf.length ∧ t.imuBuf[s.imuWp]? = some f ∧
    (∀ j, j ≠ s.imuWp → t.imuBuf[j]? = s.imuBuf[j]?) ∧
    t.imuWp = (s.imuWp + 1) % s.params.imuW

/-! ## The laws of `tick` for both modes and both readings of an overflow -/

/-- Pulse count (R107, an inference the spec marks as derived) for an axis freshly set in either mode:
as long as its position stays in the `int32` range and, in `DeltaControl`, it does not arrive, `N`
unsuspended ticks emit exactly `N / max(T, 1)` pulses, move it one step each, and change nothing else of
it but its counter. Positions wrap, or the other axes are inactive, so that none of them overflows first
(D17; log 14). -/
def Obligations.SetAxisPulsesExactlyUntilArrival : Prop :=
  ∀ (s : State) (a : Axis) (n : Nat), s.isrSuspended = false →
    (s.params.deltaOverflow = .wrap ∨ ∀ b, b ≠ a → (s.axis b).targetFreq = 65535#16) →
    (∀ b, (s.axis b).targetFreq ≠ 0#16) → (s.axis a).targetFreq ≠ 65535#16 →
    (s.axis a).tickCounter = 0#16 →
    ∀ (k : Nat) (d : Int), k = n / period s.tickRate (s.axis a).targetFreq →
    d = (if (s.axis a).direction then 1 else -1) →
    -2147483648 ≤ (s.axis a).deltaSteps.toInt + d * k →
    (s.axis a).deltaSteps.toInt + d * k ≤ 2147483647 →
    ((s.axis a).controlMode = .deltaControl → ∀ j : Nat, 1 ≤ j → j ≤ k →
      (s.axis a).deltaSteps.toInt + d * j ≠ (s.axis a).targetDelta.toInt) →
    ∃ t, runEvents (List.replicate n .tick) s = .next t ∧
      pulsesOf a t.trace =
        pulsesOf a s.trace ++ List.replicate k ⟨a, (s.axis a).direction⟩ ∧
      (t.axis a).tickCounter.toNat = n % period s.tickRate (s.axis a).targetFreq ∧
      (t.axis a).deltaSteps.toInt = (s.axis a).deltaSteps.toInt + d * k ∧
      t.axis a = { s.axis a with deltaSteps := (t.axis a).deltaSteps,
                                 tickCounter := (t.axis a).tickCounter }

/-- Travel (R108, an inference the spec marks as derived) whatever `DELTA_OVERFLOW` is: the path from the
position to the target crosses no end of the range, so with the other axes inactive the ticks have a
value under both readings of an overflow (D17; log 14). -/
def Obligations.TravelNeverOverflows : Prop :=
  ∀ (s : State) (a : Axis) (extra : Nat), s.isrSuspended = false →
    (∀ b, b ≠ a → (s.axis b).targetFreq = 65535#16) →
    (s.axis a).targetFreq ≠ 0#16 → (s.axis a).targetFreq ≠ 65535#16 →
    (s.axis a).controlMode = .deltaControl → (s.axis a).tickCounter = 0#16 →
    (s.axis a).targetDelta ≠ (s.axis a).deltaSteps →
    (s.axis a).direction =
      decide ((s.axis a).deltaSteps.toInt < (s.axis a).targetDelta.toInt) →
    ∀ dist : Nat,
      dist = ((s.axis a).targetDelta.toInt - (s.axis a).deltaSteps.toInt).natAbs →
    ∃ t, runEvents (List.replicate (dist * period s.tickRate (s.axis a).targetFreq + extra) .tick)
        s = .next t ∧
      (t.axis a).deltaSteps = (s.axis a).targetDelta ∧
      (t.axis a).controlMode = .frequencyControl ∧ (t.axis a).targetFreq = 65535#16 ∧
      pulsesOf a t.trace = pulsesOf a s.trace ++ List.replicate dist ⟨a, (s.axis a).direction⟩
end

