-- ==== Sys2Proof/Laws/State.lean ====
section
/-! SUPPORT. One lemma per field of `State` per update, so that no proof unfolds a record update. -/

namespace Sys2Proof.Machine

variable (s : State)

/-! ## `State.setAxis` -/

@[simp] theorem State.setAxis_params (a : Axis) (x : AxisState) :
    (s.setAxis a x).params = s.params := rfl
@[simp] theorem State.setAxis_axes (a : Axis) (x : AxisState) :
    (s.setAxis a x).axes = s.axes.set a x := rfl
@[simp] theorem State.setAxis_tickRate (a : Axis) (x : AxisState) :
    (s.setAxis a x).tickRate = s.tickRate := rfl
@[simp] theorem State.setAxis_isrSuspended (a : Axis) (x : AxisState) :
    (s.setAxis a x).isrSuspended = s.isrSuspended := rfl
@[simp] theorem State.setAxis_shieldEnabled (a : Axis) (x : AxisState) :
    (s.setAxis a x).shieldEnabled = s.shieldEnabled := rfl
@[simp] theorem State.setAxis_disp (a : Axis) (x : AxisState) : (s.setAxis a x).disp = s.disp := rfl
@[simp] theorem State.setAxis_cmd (a : Axis) (x : AxisState) : (s.setAxis a x).cmd = s.cmd := rfl
@[simp] theorem State.setAxis_resp (a : Axis) (x : AxisState) : (s.setAxis a x).resp = s.resp := rfl
@[simp] theorem State.setAxis_dirOut (a : Axis) (x : AxisState) :
    (s.setAxis a x).dirOut = s.dirOut := rfl
@[simp] theorem State.setAxis_trace (a : Axis) (x : AxisState) :
    (s.setAxis a x).trace = s.trace := rfl
@[simp] theorem State.setAxis_replies (a : Axis) (x : AxisState) :
    (s.setAxis a x).replies = s.replies := rfl
@[simp] theorem State.setAxis_imuBuf (a : Axis) (x : AxisState) :
    (s.setAxis a x).imuBuf = s.imuBuf := rfl
@[simp] theorem State.setAxis_imuWp (a : Axis) (x : AxisState) :
    (s.setAxis a x).imuWp = s.imuWp := rfl
@[simp] theorem State.setAxis_schedule (a : Axis) (x : AxisState) :
    (s.setAxis a x).schedule = s.schedule := rfl
@[simp] theorem State.setAxis_draws (a : Axis) (x : AxisState) :
    (s.setAxis a x).draws = s.draws := rfl

/-! ## `State.setDisp` -/

@[simp] theorem State.setDisp_params (d : Disp) : (s.setDisp d).params = s.params := rfl
@[simp] theorem State.setDisp_axes (d : Disp) : (s.setDisp d).axes = s.axes := rfl
@[simp] theorem State.setDisp_tickRate (d : Disp) : (s.setDisp d).tickRate = s.tickRate := rfl
@[simp] theorem State.setDisp_isrSuspended (d : Disp) :
    (s.setDisp d).isrSuspended = s.isrSuspended := rfl
@[simp] theorem State.setDisp_shieldEnabled (d : Disp) :
    (s.setDisp d).shieldEnabled = s.shieldEnabled := rfl
@[simp] theorem State.setDisp_disp (d : Disp) : (s.setDisp d).disp = d := rfl
@[simp] theorem State.setDisp_cmd (d : Disp) : (s.setDisp d).cmd = s.cmd := rfl
@[simp] theorem State.setDisp_resp (d : Disp) : (s.setDisp d).resp = s.resp := rfl
@[simp] theorem State.setDisp_dirOut (d : Disp) : (s.setDisp d).dirOut = s.dirOut := rfl
@[simp] theorem State.setDisp_trace (d : Disp) : (s.setDisp d).trace = s.trace := rfl
@[simp] theorem State.setDisp_replies (d : Disp) : (s.setDisp d).replies = s.replies := rfl
@[simp] theorem State.setDisp_imuBuf (d : Disp) : (s.setDisp d).imuBuf = s.imuBuf := rfl
@[simp] theorem State.setDisp_imuWp (d : Disp) : (s.setDisp d).imuWp = s.imuWp := rfl
@[simp] theorem State.setDisp_schedule (d : Disp) : (s.setDisp d).schedule = s.schedule := rfl
@[simp] theorem State.setDisp_draws (d : Disp) : (s.setDisp d).draws = s.draws := rfl

/-! ## `State.suspendIsr` -/

@[simp] theorem State.suspendIsr_params (b : Bool) : (s.suspendIsr b).params = s.params := rfl
@[simp] theorem State.suspendIsr_axes (b : Bool) : (s.suspendIsr b).axes = s.axes := rfl
@[simp] theorem State.suspendIsr_tickRate (b : Bool) : (s.suspendIsr b).tickRate = s.tickRate := rfl
@[simp] theorem State.suspendIsr_isrSuspended (b : Bool) : (s.suspendIsr b).isrSuspended = b := rfl
@[simp] theorem State.suspendIsr_shieldEnabled (b : Bool) :
    (s.suspendIsr b).shieldEnabled = s.shieldEnabled := rfl
@[simp] theorem State.suspendIsr_disp (b : Bool) : (s.suspendIsr b).disp = s.disp := rfl
@[simp] theorem State.suspendIsr_cmd (b : Bool) : (s.suspendIsr b).cmd = s.cmd := rfl
@[simp] theorem State.suspendIsr_resp (b : Bool) : (s.suspendIsr b).resp = s.resp := rfl
@[simp] theorem State.suspendIsr_dirOut (b : Bool) : (s.suspendIsr b).dirOut = s.dirOut := rfl
@[simp] theorem State.suspendIsr_trace (b : Bool) : (s.suspendIsr b).trace = s.trace := rfl
@[simp] theorem State.suspendIsr_replies (b : Bool) : (s.suspendIsr b).replies = s.replies := rfl
@[simp] theorem State.suspendIsr_imuBuf (b : Bool) : (s.suspendIsr b).imuBuf = s.imuBuf := rfl
@[simp] theorem State.suspendIsr_imuWp (b : Bool) : (s.suspendIsr b).imuWp = s.imuWp := rfl
@[simp] theorem State.suspendIsr_schedule (b : Bool) : (s.suspendIsr b).schedule = s.schedule := rfl
@[simp] theorem State.suspendIsr_draws (b : Bool) : (s.suspendIsr b).draws = s.draws := rfl

/-! ## `State.setTickRate` -/

@[simp] theorem State.setTickRate_params (r : Half) : (s.setTickRate r).params = s.params := rfl
@[simp] theorem State.setTickRate_axes (r : Half) : (s.setTickRate r).axes = s.axes := rfl
@[simp] theorem State.setTickRate_tickRate (r : Half) : (s.setTickRate r).tickRate = r := rfl
@[simp] theorem State.setTickRate_isrSuspended (r : Half) :
    (s.setTickRate r).isrSuspended = s.isrSuspended := rfl
@[simp] theorem State.setTickRate_shieldEnabled (r : Half) :
    (s.setTickRate r).shieldEnabled = s.shieldEnabled := rfl
@[simp] theorem State.setTickRate_disp (r : Half) : (s.setTickRate r).disp = s.disp := rfl
@[simp] theorem State.setTickRate_cmd (r : Half) : (s.setTickRate r).cmd = s.cmd := rfl
@[simp] theorem State.setTickRate_resp (r : Half) : (s.setTickRate r).resp = s.resp := rfl
@[simp] theorem State.setTickRate_dirOut (r : Half) : (s.setTickRate r).dirOut = s.dirOut := rfl
@[simp] theorem State.setTickRate_trace (r : Half) : (s.setTickRate r).trace = s.trace := rfl
@[simp] theorem State.setTickRate_replies (r : Half) : (s.setTickRate r).replies = s.replies := rfl
@[simp] theorem State.setTickRate_imuBuf (r : Half) : (s.setTickRate r).imuBuf = s.imuBuf := rfl
@[simp] theorem State.setTickRate_imuWp (r : Half) : (s.setTickRate r).imuWp = s.imuWp := rfl
@[simp] theorem State.setTickRate_schedule (r : Half) :
    (s.setTickRate r).schedule = s.schedule := rfl
@[simp] theorem State.setTickRate_draws (r : Half) : (s.setTickRate r).draws = s.draws := rfl

/-! ## `State.writeResp` -/

@[simp] theorem State.writeResp_params (off : Nat) (bs : List Byte) :
    (s.writeResp off bs).params = s.params := rfl
@[simp] theorem State.writeResp_axes (off : Nat) (bs : List Byte) :
    (s.writeResp off bs).axes = s.axes := rfl
@[simp] theorem State.writeResp_tickRate (off : Nat) (bs : List Byte) :
    (s.writeResp off bs).tickRate = s.tickRate := rfl
@[simp] theorem State.writeResp_isrSuspended (off : Nat) (bs : List Byte) :
    (s.writeResp off bs).isrSuspended = s.isrSuspended := rfl
@[simp] theorem State.writeResp_shieldEnabled (off : Nat) (bs : List Byte) :
    (s.writeResp off bs).shieldEnabled = s.shieldEnabled := rfl
@[simp] theorem State.writeResp_disp (off : Nat) (bs : List Byte) :
    (s.writeResp off bs).disp = s.disp := rfl
@[simp] theorem State.writeResp_cmd (off : Nat) (bs : List Byte) :
    (s.writeResp off bs).cmd = s.cmd := rfl
@[simp] theorem State.writeResp_resp (off : Nat) (bs : List Byte) :
    (s.writeResp off bs).resp = { s.resp with buf := memWrite s.resp.buf off bs } := rfl
@[simp] theorem State.writeResp_dirOut (off : Nat) (bs : List Byte) :
    (s.writeResp off bs).dirOut = s.dirOut := rfl
@[simp] theorem State.writeResp_trace (off : Nat) (bs : List Byte) :
    (s.writeResp off bs).trace = s.trace := rfl
@[simp] theorem State.writeResp_replies (off : Nat) (bs : List Byte) :
    (s.writeResp off bs).replies = s.replies := rfl
@[simp] theorem State.writeResp_imuBuf (off : Nat) (bs : List Byte) :
    (s.writeResp off bs).imuBuf = s.imuBuf := rfl
@[simp] theorem State.writeResp_imuWp (off : Nat) (bs : List Byte) :
    (s.writeResp off bs).imuWp = s.imuWp := rfl
@[simp] theorem State.writeResp_schedule (off : Nat) (bs : List Byte) :
    (s.writeResp off bs).schedule = s.schedule := rfl
@[simp] theorem State.writeResp_draws (off : Nat) (bs : List Byte) :
    (s.writeResp off bs).draws = s.draws := rfl

/-! ## `State.respond` -/

@[simp] theorem State.respond_params (ok : Bool) (len : RespLen) :
    (s.respond ok len).params = s.params := rfl
@[simp] theorem State.respond_axes (ok : Bool) (len : RespLen) :
    (s.respond ok len).axes = s.axes := rfl
@[simp] theorem State.respond_tickRate (ok : Bool) (len : RespLen) :
    (s.respond ok len).tickRate = s.tickRate := rfl
@[simp] theorem State.respond_isrSuspended (ok : Bool) (len : RespLen) :
    (s.respond ok len).isrSuspended = s.isrSuspended := rfl
@[simp] theorem State.respond_shieldEnabled (ok : Bool) (len : RespLen) :
    (s.respond ok len).shieldEnabled = s.shieldEnabled := rfl
@[simp] theorem State.respond_disp (ok : Bool) (len : RespLen) :
    (s.respond ok len).disp = .idle := rfl
@[simp] theorem State.respond_cmd (ok : Bool) (len : RespLen) :
    (s.respond ok len).cmd = s.cmd := rfl
@[simp] theorem State.respond_resp (ok : Bool) (len : RespLen) :
    (s.respond ok len).resp = { s.resp with ok := ok, len := len } := rfl
@[simp] theorem State.respond_dirOut (ok : Bool) (len : RespLen) :
    (s.respond ok len).dirOut = s.dirOut := rfl
@[simp] theorem State.respond_trace (ok : Bool) (len : RespLen) :
    (s.respond ok len).trace = s.trace := rfl
@[simp] theorem State.respond_replies (ok : Bool) (len : RespLen) :
    (s.respond ok len).replies = s.replies ++ [⟨ok, s.resp.buf.toList.take len.bytes⟩] := rfl
@[simp] theorem State.respond_imuBuf (ok : Bool) (len : RespLen) :
    (s.respond ok len).imuBuf = s.imuBuf := rfl
@[simp] theorem State.respond_imuWp (ok : Bool) (len : RespLen) :
    (s.respond ok len).imuWp = s.imuWp := rfl
@[simp] theorem State.respond_schedule (ok : Bool) (len : RespLen) :
    (s.respond ok len).schedule = s.schedule := rfl
@[simp] theorem State.respond_draws (ok : Bool) (len : RespLen) :
    (s.respond ok len).draws = s.draws := rfl

/-! ## `State.emitPulse` -/

@[simp] theorem State.emitPulse_params (a : Axis) (d : Bool) :
    (s.emitPulse a d).params = s.params := rfl
@[simp] theorem State.emitPulse_axes (a : Axis) (d : Bool) : (s.emitPulse a d).axes = s.axes := rfl
@[simp] theorem State.emitPulse_tickRate (a : Axis) (d : Bool) :
    (s.emitPulse a d).tickRate = s.tickRate := rfl
@[simp] theorem State.emitPulse_isrSuspended (a : Axis) (d : Bool) :
    (s.emitPulse a d).isrSuspended = s.isrSuspended := rfl
@[simp] theorem State.emitPulse_shieldEnabled (a : Axis) (d : Bool) :
    (s.emitPulse a d).shieldEnabled = s.shieldEnabled := rfl
@[simp] theorem State.emitPulse_disp (a : Axis) (d : Bool) : (s.emitPulse a d).disp = s.disp := rfl
@[simp] theorem State.emitPulse_cmd (a : Axis) (d : Bool) : (s.emitPulse a d).cmd = s.cmd := rfl
@[simp] theorem State.emitPulse_resp (a : Axis) (d : Bool) : (s.emitPulse a d).resp = s.resp := rfl
@[simp] theorem State.emitPulse_dirOut (a : Axis) (d : Bool) :
    (s.emitPulse a d).dirOut = s.dirOut.set a d := rfl
@[simp] theorem State.emitPulse_trace (a : Axis) (d : Bool) :
    (s.emitPulse a d).trace = s.trace ++ [⟨a, d⟩] := rfl
@[simp] theorem State.emitPulse_replies (a : Axis) (d : Bool) :
    (s.emitPulse a d).replies = s.replies := rfl
@[simp] theorem State.emitPulse_imuBuf (a : Axis) (d : Bool) :
    (s.emitPulse a d).imuBuf = s.imuBuf := rfl
@[simp] theorem State.emitPulse_imuWp (a : Axis) (d : Bool) :
    (s.emitPulse a d).imuWp = s.imuWp := rfl
@[simp] theorem State.emitPulse_schedule (a : Axis) (d : Bool) :
    (s.emitPulse a d).schedule = s.schedule := rfl
@[simp] theorem State.emitPulse_draws (a : Axis) (d : Bool) :
    (s.emitPulse a d).draws = s.draws := rfl

/-! ## `State.imuSample` -/

@[simp] theorem State.imuSample_params (f : Frame) : (s.imuSample f).params = s.params := rfl
@[simp] theorem State.imuSample_axes (f : Frame) : (s.imuSample f).axes = s.axes := rfl
@[simp] theorem State.imuSample_tickRate (f : Frame) : (s.imuSample f).tickRate = s.tickRate := rfl
@[simp] theorem State.imuSample_isrSuspended (f : Frame) :
    (s.imuSample f).isrSuspended = s.isrSuspended := rfl
@[simp] theorem State.imuSample_shieldEnabled (f : Frame) :
    (s.imuSample f).shieldEnabled = s.shieldEnabled := rfl
@[simp] theorem State.imuSample_disp (f : Frame) : (s.imuSample f).disp = s.disp := rfl
@[simp] theorem State.imuSample_cmd (f : Frame) : (s.imuSample f).cmd = s.cmd := rfl
@[simp] theorem State.imuSample_resp (f : Frame) : (s.imuSample f).resp = s.resp := rfl
@[simp] theorem State.imuSample_dirOut (f : Frame) : (s.imuSample f).dirOut = s.dirOut := rfl
@[simp] theorem State.imuSample_trace (f : Frame) : (s.imuSample f).trace = s.trace := rfl
@[simp] theorem State.imuSample_replies (f : Frame) : (s.imuSample f).replies = s.replies := rfl
@[simp] theorem State.imuSample_imuBuf (f : Frame) :
    (s.imuSample f).imuBuf = s.imuBuf.set s.imuWp f := rfl
@[simp] theorem State.imuSample_imuWp (f : Frame) :
    (s.imuSample f).imuWp = (s.imuWp + 1) % s.params.imuW := rfl
@[simp] theorem State.imuSample_schedule (f : Frame) : (s.imuSample f).schedule = s.schedule := rfl
@[simp] theorem State.imuSample_draws (f : Frame) : (s.imuSample f).draws = s.draws := rfl

/-! ## `State.drawResponse` -/

@[simp] theorem State.drawResponse_params : (s.drawResponse).params = s.params := by
  simp [State.drawResponse]
@[simp] theorem State.drawResponse_axes : (s.drawResponse).axes = s.axes := by
  simp [State.drawResponse]
@[simp] theorem State.drawResponse_tickRate : (s.drawResponse).tickRate = s.tickRate := by
  simp [State.drawResponse]
@[simp] theorem State.drawResponse_isrSuspended :
    (s.drawResponse).isrSuspended = s.isrSuspended := by
  simp [State.drawResponse]
@[simp] theorem State.drawResponse_shieldEnabled :
    (s.drawResponse).shieldEnabled = s.shieldEnabled := by
  simp [State.drawResponse]
@[simp] theorem State.drawResponse_disp : (s.drawResponse).disp = s.disp := by
  simp [State.drawResponse]
@[simp] theorem State.drawResponse_cmd : (s.drawResponse).cmd = s.cmd := by
  simp [State.drawResponse]
@[simp] theorem State.drawResponse_resp :
    (s.drawResponse).resp =
      { s.resp with buf := memWrite s.resp.buf 0 (wordBytes (Config.freeWord s.draws 0)) } := by
  simp [State.drawResponse]
@[simp] theorem State.drawResponse_dirOut : (s.drawResponse).dirOut = s.dirOut := by
  simp [State.drawResponse]
@[simp] theorem State.drawResponse_trace : (s.drawResponse).trace = s.trace := by
  simp [State.drawResponse]
@[simp] theorem State.drawResponse_replies : (s.drawResponse).replies = s.replies := by
  simp [State.drawResponse]
@[simp] theorem State.drawResponse_imuBuf : (s.drawResponse).imuBuf = s.imuBuf := by
  simp [State.drawResponse]
@[simp] theorem State.drawResponse_imuWp : (s.drawResponse).imuWp = s.imuWp := by
  simp [State.drawResponse]
@[simp] theorem State.drawResponse_schedule : (s.drawResponse).schedule = s.schedule := by
  simp [State.drawResponse]
@[simp] theorem State.drawResponse_draws : (s.drawResponse).draws = s.draws + 1 := by
  simp [State.drawResponse]

end Sys2Proof.Machine
end

