-- ==== Sys2Proof/Laws/Ops.lean ====
section
/-! SUPPORT. What the shared register operations can do: access by axis, register writes, the engine
operations, the response buffer. -/

namespace Sys2Proof

/-! ## Vectors by axis -/

@[simp] theorem PerAxis.get_set_same {α : Type} (v : PerAxis α) (a : Axis) (e : α) :
    (v.set a e).get a = e := by cases a <;> rfl

theorem PerAxis.get_set_ne {α : Type} (v : PerAxis α) {a b : Axis} (e : α) (h : b ≠ a) :
    (v.set a e).get b = v.get b := by cases a <;> cases b <;> first | rfl | exact absurd rfl h

theorem PerAxis.get_set {α : Type} (v : PerAxis α) (a b : Axis) (e : α) :
    (v.set a e).get b = if b = a then e else v.get b := by
  split
  · subst b; exact v.get_set_same a e
  · exact v.get_set_ne e ‹_›

@[simp] theorem PerAxis.get_ofFn {α : Type} (f : Axis → α) (a : Axis) :
    (PerAxis.ofFn f).get a = f a := by cases a <;> rfl

theorem PerAxis.ext_get {α : Type} {v w : PerAxis α} (h : ∀ a, v.get a = w.get a) : v = w := by
  cases v; cases w
  exact congr (congr (congrArg PerAxis.mk (h .x)) (h .y)) (h .z)

@[simp] theorem Axis.mem_all (a : Axis) : a ∈ Axis.all := by cases a <;> decide

theorem Axis.forall_all {p : Axis → Bool} : Axis.all.all p = true ↔ ∀ a, p a = true := by
  simp [List.all_eq_true]

namespace Machine

/-! ## Axis records -/

@[simp] theorem State.axis_setAxis_same (s : State) (a : Axis) (x : AxisState) :
    (s.setAxis a x).axis a = x := PerAxis.get_set_same ..

theorem State.axis_setAxis_ne (s : State) {a b : Axis} (x : AxisState) (h : b ≠ a) :
    (s.setAxis a x).axis b = s.axis b := PerAxis.get_set_ne _ _ h

theorem State.axis_setAxis (s : State) (a b : Axis) (x : AxisState) :
    (s.setAxis a x).axis b = if b = a then x else s.axis b := PerAxis.get_set ..

theorem State.axis_of_axes_eq {s t : State} (h : t.axes = s.axes) (a : Axis) : t.axis a = s.axis a :=
  congrArg (PerAxis.get · a) h

@[simp] theorem State.axis_setDisp (s : State) (d : Disp) (a : Axis) :
    (s.setDisp d).axis a = s.axis a := rfl

@[simp] theorem State.axis_suspendIsr (s : State) (b : Bool) (a : Axis) :
    (s.suspendIsr b).axis a = s.axis a := rfl

@[simp] theorem State.axis_setTickRate (s : State) (r : Half) (a : Axis) :
    (s.setTickRate r).axis a = s.axis a := rfl

@[simp] theorem State.axis_writeResp (s : State) (off : Nat) (bs : List Byte) (a : Axis) :
    (s.writeResp off bs).axis a = s.axis a := rfl

@[simp] theorem State.axis_respond (s : State) (ok : Bool) (len : RespLen) (a : Axis) :
    (s.respond ok len).axis a = s.axis a := rfl

@[simp] theorem State.axis_emitPulse (s : State) (a b : Axis) (d : Bool) :
    (s.emitPulse a d).axis b = s.axis b := rfl

@[simp] theorem State.axis_imuSample (s : State) (f : Frame) (a : Axis) :
    (s.imuSample f).axis a = s.axis a := rfl

/-! ## Register writes -/

/-- A register write reaches the axis file and the three control registers, nothing else. -/
theorem RegWrite.apply_frame (w : RegWrite) (s : State) :
    w.apply s =
      { s with axes := (w.apply s).axes, tickRate := (w.apply s).tickRate,
               isrSuspended := (w.apply s).isrSuspended,
               shieldEnabled := (w.apply s).shieldEnabled } := by
  cases w <;> rfl

/-- A write to the axis file leaves the control registers alone. -/
theorem RegWrite.apply_onAxis {w : RegWrite} (h : w.onAxis = true) (s : State) :
    w.apply s = { s with axes := (w.apply s).axes } := by
  cases w <;> first | rfl | cases h

/-- Register writes reach the axis file and the three control registers, nothing else. -/
theorem applyWrites_frame (ws : List RegWrite) (s : State) :
    applyWrites ws s =
      { s with axes := (applyWrites ws s).axes, tickRate := (applyWrites ws s).tickRate,
               isrSuspended := (applyWrites ws s).isrSuspended,
               shieldEnabled := (applyWrites ws s).shieldEnabled } := by
  induction ws generalizing s with
  | nil => rfl
  | cons w ws ih =>
    rw [applyWrites, ih]
    rw [show w.apply s = _ from w.apply_frame s]

/-- Writes to the axis file leave everything else alone. -/
theorem applyWrites_onAxis {ws : List RegWrite} (h : ws.all RegWrite.onAxis = true) (s : State) :
    applyWrites ws s = { s with axes := (applyWrites ws s).axes } := by
  induction ws generalizing s with
  | nil => rfl
  | cons w ws ih =>
    simp only [List.all_cons, Bool.and_eq_true] at h
    rw [applyWrites, ih h.2]
    rw [show w.apply s = _ from RegWrite.apply_onAxis h.1 s]

theorem applyWrites_append (ws vs : List RegWrite) (s : State) :
    applyWrites (ws ++ vs) s = applyWrites vs (applyWrites ws s) := by
  induction ws generalizing s with
  | nil => rfl
  | cons w ws ih => exact ih _

theorem setTargetFreqWrites_onAxis (a : Axis) (f : Half) (d : Bool) :
    (setTargetFreqWrites a f d).all RegWrite.onAxis = true := rfl

theorem setTargetDeltaWrites_onAxis (a : Axis) (f : Half) (t p : Word) :
    (setTargetDeltaWrites a f t p).all RegWrite.onAxis = true := by
  unfold setTargetDeltaWrites; split <;> rfl

/-! ## The engine operations as one update of one axis -/

/-- Writing one axis twice is writing it once. -/
@[simp] theorem State.setAxis_setAxis (s : State) (a : Axis) (x y : AxisState) :
    (s.setAxis a x).setAxis a y = s.setAxis a y := by
  cases a <;> rfl

theorem State.setTargetFreq_eq (s : State) (a : Axis) (f : Half) (d : Bool) :
    s.setTargetFreq a f d =
      s.setAxis a { s.axis a with controlMode := .frequencyControl, targetFreq := f,
                                  direction := d, tickCounter := 0 } := by
  simp [State.setTargetFreq, setTargetFreqWrites, applyWrites, RegWrite.apply]

/-- The cancel branch of `set_target_delta` (R82). -/
theorem State.setTargetDelta_cancel {s : State} {a : Axis} {t : Word}
    (h : t = (s.axis a).deltaSteps) (f : Half) :
    s.setTargetDelta a f t =
      s.setAxis a { s.axis a with controlMode := .frequencyControl, targetFreq := inactiveFreq,
                                  tickCounter := 0 } := by
  simp [State.setTargetDelta, setTargetDeltaWrites, State.getDeltaSteps, h, applyWrites,
    RegWrite.apply]

/-- The other branch of `set_target_delta` (R82). -/
theorem State.setTargetDelta_move {s : State} {a : Axis} {t : Word}
    (h : t ≠ (s.axis a).deltaSteps) (f : Half) :
    s.setTargetDelta a f t =
      s.setAxis a { s.axis a with controlMode := .deltaControl, targetDelta := t, targetFreq := f,
                                  direction := (s.axis a).deltaSteps.slt t, tickCounter := 0 } := by
  simp [State.setTargetDelta, setTargetDeltaWrites, State.getDeltaSteps, h, applyWrites,
    RegWrite.apply]

theorem State.setDeltaSteps_eq (s : State) (a : Axis) (v : Word) :
    s.setDeltaSteps a v = s.setAxis a { s.axis a with deltaSteps := v } := rfl

/-! ## The response buffer -/

/-- A byte of `RESP` after a write: one of the bytes written, or the byte as it was. -/
theorem memWrite_get (buf : Vector Byte 18) (off : Nat) (bs : List Byte) (j : Nat) (h : j < 18) :
    (memWrite buf off bs)[j] = if off ≤ j then bs.getD (j - off) buf[j] else buf[j] := by
  induction bs generalizing buf off with
  | nil => simp [memWrite]
  | cons b bs ih =>
    rw [memWrite, ih, Vector.getElem_setIfInBounds]
    by_cases h1 : off = j
    · subst h1; simp
    · by_cases h2 : off ≤ j
      · have h3 : off + 1 ≤ j := by omega
        have h4 : j - off = (j - (off + 1)) + 1 := by omega
        simp [h1, h2, h3, h4]
      · have h3 : ¬ off + 1 ≤ j := by omega
        simp [h1, h2, h3]

/-- A byte outside the bytes written is as it was. -/
theorem memWrite_get_outside (buf : Vector Byte 18) (off : Nat) (bs : List Byte) (j : Nat)
    (h : j < 18) (ho : j < off ∨ off + bs.length ≤ j) : (memWrite buf off bs)[j] = buf[j] := by
  rw [memWrite_get]
  split
  · rw [List.getD_eq_default _ _ (by omega)]
  · rfl

end Machine
end Sys2Proof
end

