-- ==== Sys2Proof/Laws/Memory.lean ====
section
/-! SUPPORT. The sampler's window keeps its form: `W` frames, the pointer in the window. `RESP` is a
vector of 18 bytes, so every write keeps its length by type. -/

namespace Sys2Proof.Machine

theorem Params.imuW_pos (p : Params) : 0 < p.imuW := Nat.two_pow_pos _

/-- `sample()` keeps the form of the window. -/
theorem State.windowOk_imuSample (s : State) (f : Frame) (h : s.windowOk = true) :
    (s.imuSample f).windowOk = true := by
  simp only [State.windowOk, Bool.and_eq_true, decide_eq_true_eq, State.imuSample_imuBuf,
    State.imuSample_imuWp, State.imuSample_params, List.length_set] at h ⊢
  exact ⟨h.1, decide_eq_true (Nat.mod_lt _ (Params.imuW_pos s.params))⟩

/-- Power-on gives the window its form whatever it was. -/
theorem State.windowOk_powerOn (s : State) (d : PerAxis Word) : (s.powerOn d).windowOk = true := by
  simp only [State.windowOk, State.powerOn, State.drawUnspecified, State.drawTargetDeltas,
    State.init, Bool.and_eq_true, decide_eq_true_eq, List.length_map, List.length_range]
  exact ⟨trivial, decide_eq_true (Nat.mod_lt _ (Params.imuW_pos s.params))⟩

/-- The state right after power-on has the form. -/
theorem State.windowOk_reset : State.reset.windowOk = true := by decide

end Sys2Proof.Machine
end

