-- ==== Sys2Proof/Laws/Micro.lean ====
section
/-! SUPPORT. What the shared operations over micro-steps can do: the axis loop, the bracket, a command
run to completion. -/

namespace Sys2Proof.Machine

/-! ## The axis bitmask (R66) -/

theorem selects_eq_maskBit (mask : Byte) (a : Axis) : selects mask a = maskBit mask a := by
  cases a <;> (revert mask; decide)

theorem mem_selectedAxes {mask : Byte} {a : Axis} :
    a ∈ selectedAxes mask ↔ maskBit mask a = true := by
  simp [selectedAxes, selects_eq_maskBit]

/-- No axis is selected exactly when bits 2:0 are clear. -/
theorem selectedAxes_isEmpty {mask : Byte} :
    (selectedAxes mask).isEmpty = true ↔ ∀ a, maskBit mask a = false := by
  simp [selectedAxes, List.isEmpty_iff, List.filter_eq_nil_iff, selects_eq_maskBit]

/-! ## Runs of micro-steps -/

theorem runOps_append (ops rest : List MicroOp) (s : State) :
    runOps (ops ++ rest) s = runOps rest (runOps ops s) := by
  induction ops generalizing s with
  | nil => rfl
  | cons op ops ih => exact ih _

theorem runOps_writes (ws : List RegWrite) (s : State) :
    runOps (ws.map MicroOp.write) s = applyWrites ws s := by
  induction ws generalizing s with
  | nil => rfl
  | cons w ws ih => exact ih _

/-- Taking one micro-step and then the rest is taking them all. -/
theorem runOps_step (op : MicroOp) (ops : List MicroOp) (s : State) :
    runOps ((op.follow s).map MicroOp.write ++ ops) (op.apply s) = runOps (op :: ops) s := by
  rw [runOps_append, runOps_writes]; rfl

/-- A guarded command's micro-steps: acquire, the loop, release. -/
theorem runOps_guardedOps (mask : Byte) (op : Axis → List MicroOp) (s : State) :
    runOps (guardedOps mask op) s =
      (runOps ((selectedAxes mask).flatMap op) (s.suspendIsr true)).suspendIsr false := by
  rw [guardedOps, runOps, runOps_append]; rfl

/-- The loop over the selected axes, where each turn is one update of its own axis: exactly the selected
axes are updated, each from its own record. -/
theorem runOps_loop {op : Axis → List MicroOp} {upd : Axis → AxisState → AxisState}
    (h : ∀ a s, runOps (op a) s = s.setAxis a (upd a (s.axis a))) (mask : Byte) (s : State) :
    runOps ((selectedAxes mask).flatMap op) s =
      { s with axes := .ofFn fun a => if maskBit mask a then upd a (s.axis a) else s.axis a } := by
  have hl : ∀ l : List Axis, l.Nodup → ∀ s : State, runOps (l.flatMap op) s =
      { s with axes := .ofFn fun a => if a ∈ l then upd a (s.axis a) else s.axis a } := by
    intro l
    induction l with
    | nil => intro _ s; cases s with | mk p ax => cases ax; rfl
    | cons b l ih =>
      intro hn s
      rw [List.flatMap_cons, runOps_append, h, ih (List.nodup_cons.1 hn).2]
      simp only [State.setAxis]
      congr 1
      apply PerAxis.ext_get
      intro a
      have hb := (List.nodup_cons.1 hn).1
      by_cases hab : a = b
      · subst hab; simp [hb, State.axis]
      · simp [hab, State.axis, PerAxis.get_set_ne]
  have hn : (selectedAxes mask).Nodup := by
    unfold selectedAxes; exact List.Nodup.filter _ (by decide)
  rw [hl _ hn]
  simp only [mem_selectedAxes]

/-- `COMPLETE` of a command whose response bytes are determined. -/
theorem State.complete_determined (s : State) (len : RespLen) :
    s.complete ⟨len, false⟩ = s.respond true len := rfl

/-- `COMPLETE` of a command whose response bytes are unspecified. -/
theorem State.complete_unspecified (s : State) (len : RespLen) :
    s.complete ⟨len, true⟩ = s.drawResponse.respond true len := rfl

/-- Every command ends with a next state. -/
theorem exec_eq (i : Instr) (s : State) :
    exec i s = .next ((runOps (bodyOf i).ops s).complete (bodyOf i).fin) := by
  cases i <;> rfl

/-! ## Frames of a micro-step -/

/-- A micro-step reaches the axis file, the control registers and the response bytes, nothing else. -/
theorem MicroOp.apply_frame (op : MicroOp) (s : State) :
    op.apply s =
      { s with axes := (op.apply s).axes, tickRate := (op.apply s).tickRate,
               isrSuspended := (op.apply s).isrSuspended,
               shieldEnabled := (op.apply s).shieldEnabled, resp := (op.apply s).resp } := by
  cases op with
  | write w => cases w <;> rfl
  | respondDelta a =>
    simp only [MicroOp.apply]; generalize deltaResponse (s.getDeltaSteps a) = bs; rfl
  | respondRate => simp only [MicroOp.apply]; generalize rateResponse s.getTickRate = bs; rfl
  | respondImu => simp only [MicroOp.apply]; generalize imuResponse s.imuAvg = bs; rfl
  | _ => rfl

/-- Micro-steps reach the axis file, the control registers and the response bytes, nothing else. -/
theorem runOps_frame (ops : List MicroOp) (s : State) :
    runOps ops s =
      { s with axes := (runOps ops s).axes, tickRate := (runOps ops s).tickRate,
               isrSuspended := (runOps ops s).isrSuspended,
               shieldEnabled := (runOps ops s).shieldEnabled, resp := (runOps ops s).resp } := by
  induction ops generalizing s with
  | nil => rfl
  | cons op ops ih =>
    rw [runOps, ih, show applyWrites (op.follow s) (op.apply s) = _ from applyWrites_frame _ _,
      show op.apply s = _ from op.apply_frame s]

/-- A micro-step writes `resp` in its bytes only. -/
theorem MicroOp.apply_resp (op : MicroOp) (s : State) :
    (op.apply s).resp = { s.resp with buf := (op.apply s).resp.buf } := by
  cases op with
  | write w => cases w <;> rfl
  | respondDelta a =>
    simp only [MicroOp.apply]; generalize deltaResponse (s.getDeltaSteps a) = bs; rfl
  | respondRate => simp only [MicroOp.apply]; generalize rateResponse s.getTickRate = bs; rfl
  | respondImu => simp only [MicroOp.apply]; generalize imuResponse s.imuAvg = bs; rfl
  | _ => rfl

/-- `COMPLETE` writes the response, the dispatcher's state and the record of responses, and draws;
nothing else. -/
theorem State.complete_frame (s : State) (fin : Finish) :
    s.complete fin =
      { s with resp := (s.complete fin).resp, disp := .idle, replies := (s.complete fin).replies,
               draws := (s.complete fin).draws } := by
  obtain ⟨len, b⟩ := fin; cases b <;> rfl

@[simp] theorem State.complete_disp (s : State) (fin : Finish) : (s.complete fin).disp = .idle := by
  rw [State.complete_frame]

@[simp] theorem State.axis_complete (s : State) (fin : Finish) (a : Axis) :
    (s.complete fin).axis a = s.axis a := by
  rw [State.complete_frame]; rfl

/-! ## Nothing a micro-step does depends on `disp` -/

theorem RegWrite.apply_setDisp (w : RegWrite) (s : State) (d : Disp) :
    w.apply (s.setDisp d) = (w.apply s).setDisp d := by cases w <;> rfl

theorem applyWrites_setDisp (ws : List RegWrite) (s : State) (d : Disp) :
    applyWrites ws (s.setDisp d) = (applyWrites ws s).setDisp d := by
  induction ws generalizing s with
  | nil => rfl
  | cons w ws ih => rw [applyWrites, w.apply_setDisp, ih]; rfl

theorem MicroOp.apply_setDisp (op : MicroOp) (s : State) (d : Disp) :
    op.apply (s.setDisp d) = (op.apply s).setDisp d := by
  cases op with
  | write w => exact w.apply_setDisp s d
  | respondDelta a =>
    simp only [MicroOp.apply]; generalize h : deltaResponse _ = bs
    rw [show deltaResponse (s.getDeltaSteps a) = bs from h]; rfl
  | respondRate =>
    simp only [MicroOp.apply]; generalize h : rateResponse _ = bs
    rw [show rateResponse s.getTickRate = bs from h]; rfl
  | respondImu =>
    simp only [MicroOp.apply]; generalize h : imuResponse _ = bs
    rw [show imuResponse s.imuAvg = bs from h]; rfl
  | _ => rfl

theorem MicroOp.follow_setDisp (op : MicroOp) (s : State) (d : Disp) :
    op.follow (s.setDisp d) = op.follow s := by cases op <;> rfl

theorem runOps_setDisp (ops : List MicroOp) (s : State) (d : Disp) :
    runOps ops (s.setDisp d) = (runOps ops s).setDisp d := by
  induction ops generalizing s with
  | nil => rfl
  | cons op ops ih =>
    rw [runOps, op.apply_setDisp, op.follow_setDisp, applyWrites_setDisp, ih]; rfl

theorem State.complete_setDisp (s : State) (d : Disp) (fin : Finish) :
    (s.setDisp d).complete fin = s.complete fin := by
  obtain ⟨len, b⟩ := fin; cases b <;> rfl

end Sys2Proof.Machine
end

