-- ==== Sys2Proof/Laws/Tick.lean ====
section
/-! SUPPORT. What `tick` can do: the cases of one axis, the frame, the order of the axes. -/

namespace Sys2Proof.Machine

/-- Everything `axis_tick` can do when it has a value: skip, count, or pulse. -/
theorem axisTick_cases {a : Axis} {s t : State} (h : axisTick a s = .ok t) :
    ((s.axis a).targetFreq = inactiveFreq ∧ t = s) ∨
    ((s.axis a).targetFreq ≠ inactiveFreq ∧ (s.axis a).targetFreq ≠ 0 ∧
      reached ((s.axis a).tickCounter + 1) (threshold s.tickRate (s.axis a).targetFreq) = false ∧
      t = s.setAxis a { s.axis a with tickCounter := (s.axis a).tickCounter + 1 }) ∨
    ((s.axis a).targetFreq ≠ inactiveFreq ∧ (s.axis a).targetFreq ≠ 0 ∧
      reached ((s.axis a).tickCounter + 1) (threshold s.tickRate (s.axis a).targetFreq) = true ∧
      t = (s.emitPulse a (s.axis a).direction).setAxis a (s.axis a).stepped.settle) := by
  simp only [axisTick] at h
  split at h
  · exact .inl ⟨‹_›, by simpa using h.symm⟩
  · split at h
    · cases h
    · split at h
      · rename_i h1 h2 h3
        simp only [pulse] at h
        split at h
        · cases h
        · exact .inr (.inr ⟨h1, h2, h3, (Except.ok.inj h).symm⟩)
      · rename_i h1 h2 h3
        exact .inr (.inl ⟨h1, h2, Bool.eq_false_iff.2 h3, (Except.ok.inj h).symm⟩)

/-- `axis_tick` reads and writes its own axis, its own direction line and the trace (R100). -/
theorem axisTick_frame {a : Axis} {s t : State} (h : axisTick a s = .ok t) :
    t = { s with axes := s.axes.set a (t.axis a), dirOut := s.dirOut.set a (t.dirOut.get a)
                 trace := t.trace } := by
  obtain ⟨_, rfl⟩ | ⟨_, _, _, rfl⟩ | ⟨_, _, _, rfl⟩ := axisTick_cases h
  · cases t with | mk p ax r su sh d c re di => cases ax; cases di; cases a <;> rfl
  · cases s with | mk p ax r su sh d c re di => cases ax; cases di; cases a <;> rfl
  · cases s with | mk p ax r su sh d c re di => cases ax; cases di; cases a <;> rfl

/-- The pulses `axis_tick` appends: none, or one with the axis's direction. -/
theorem axisTick_trace {a : Axis} {s t : State} (h : axisTick a s = .ok t) :
    t.trace = s.trace ∨ t.trace = s.trace ++ [⟨a, (s.axis a).direction⟩] := by
  obtain ⟨_, rfl⟩ | ⟨_, _, _, rfl⟩ | ⟨_, _, _, rfl⟩ := axisTick_cases h
  · exact .inl rfl
  · exact .inl rfl
  · exact .inr rfl

/-- `axis_tick` never changes the direction or the target of an axis. -/
theorem axisTick_keeps {a : Axis} {s t : State} (h : axisTick a s = .ok t) (b : Axis) :
    (t.axis b).direction = (s.axis b).direction ∧ (t.axis b).targetDelta = (s.axis b).targetDelta := by
  by_cases hb : b = a
  · subst hb
    obtain ⟨_, rfl⟩ | ⟨_, _, _, rfl⟩ | ⟨_, _, _, rfl⟩ := axisTick_cases h
    · exact ⟨rfl, rfl⟩
    · simp
    · rw [State.axis_setAxis_same, AxisState.settle]
      cases (s.axis b).stepped.arrived <;> exact ⟨rfl, rfl⟩
  · have := axisTick_frame h
    rw [this]
    simp [State.axis, PerAxis.get_set_ne _ _ hb]

/-- `axis_tick` leaves the other axes alone (R100). -/
theorem axisTick_other {a b : Axis} {s t : State} (h : axisTick a s = .ok t) (hb : b ≠ a) :
    t.axis b = s.axis b := by
  rw [axisTick_frame h]; exact PerAxis.get_set_ne _ _ hb

/-! ## The numbers of one tick -/

/-- The comparison with the threshold (R101, R102), in the natural numbers. -/
theorem reached_iff {c r f : Half} (hc : c.toNat ≤ 65534) :
    reached (c + 1) (threshold r f) = true ↔ r.toNat / f.toNat ≤ c.toNat + 1 := by
  have : (c + 1).toNat = c.toNat + 1 := by rw [BitVec.toNat_add]; simp; omega
  rw [reached, threshold, BitVec.ule, decide_eq_true_eq, this, BitVec.toNat_udiv]

/-- The axis record after a pulse: one step on, and stopped if that step reached the target. -/
theorem AxisState.settle_stepped (x : AxisState) :
    x.stepped.settle =
      if x.controlMode = .deltaControl ∧ stepDelta x.direction x.deltaSteps = x.targetDelta then
        { x with tickCounter := 0, deltaSteps := stepDelta x.direction x.deltaSteps,
                 controlMode := .frequencyControl, targetFreq := inactiveFreq }
      else { x with tickCounter := 0, deltaSteps := stepDelta x.direction x.deltaSteps } := by
  by_cases h : x.controlMode = .deltaControl ∧ stepDelta x.direction x.deltaSteps = x.targetDelta
  · simp [AxisState.settle, AxisState.arrived, AxisState.stepped, h]
  · rw [if_neg h, AxisState.settle, if_neg]
    · rfl
    · simpa [AxisState.arrived, AxisState.stepped] using h

/-- Everything `tick` can do when it has a value: nothing while suspended, else X, Y and Z in turn. -/
theorem tick_cases {s t : State} (h : tick s = .ok t) :
    (s.isrSuspended = true ∧ t = s) ∨
    (s.isrSuspended = false ∧ ∃ u v, axisTick .x s = .ok u ∧ axisTick .y u = .ok v ∧
      axisTick .z v = .ok t) := by
  unfold tick at h
  cases hs : s.isrSuspended
  · rw [hs] at h
    refine .inr ⟨rfl, ?_⟩
    replace h : tickAxes Axis.all s = .ok t := h
    simp only [Axis.all, tickAxes] at h
    cases hx : axisTick .x s with
    | error f => simp [hx] at h
    | ok u =>
      cases hy : axisTick .y u with
      | error f => simp [hx, hy] at h
      | ok v =>
        cases hz : axisTick .z v with
        | error f => simp [hx, hy, hz] at h
        | ok w =>
          simp only [hx, hy, hz, Except.ok.injEq] at h
          exact ⟨u, v, rfl, hy, h ▸ hz⟩
  · rw [hs] at h
    exact .inl ⟨rfl, (Except.ok.inj h).symm⟩

end Sys2Proof.Machine
end

