-- ==== Sys2Proof/Laws/Events.lean ====
section
/-! SUPPORT. What the events can do: one inversion lemma per event. -/

namespace Sys2Proof.Machine

/-- Everything one micro-step can do when it answers a next state. -/
theorem microStep_cases {s t : State} (h : microStep s = .next t) :
    (s.disp = .busy0 ∧ t = decodeStep s) ∨
    (∃ k fin, s.disp = .busy k [] fin ∧ t = s.complete fin) ∨
    (∃ k op ops fin, s.disp = .busy k (op :: ops) fin ∧
      t = (op.apply s).setDisp
        (.busy (k + 1) ((op.follow s).map MicroOp.write ++ ops) fin)) := by
  unfold microStep at h
  split at h
  · cases h
  · exact .inl ⟨‹_›, by simpa using h.symm⟩
  · exact .inr (.inl ⟨_, _, ‹_›, by simpa using h.symm⟩)
  · exact .inr (.inr ⟨_, _, _, _, ‹_›, by simpa using h.symm⟩)

/-- Everything `run` can do when it answers a next state. -/
theorem runStep_cases {s t : State} (h : runStep s = .next t) :
    (∃ e, s.disp = .busy0 ∧ s.decoded = .error e ∧ t = s.raise e) ∨
    (∃ i, s.disp = .busy0 ∧ s.decoded = .ok i ∧ exec i s = .next t) ∨
    (∃ k ops fin, s.disp = .busy k ops fin ∧ t = (runOps ops s).complete fin) := by
  unfold runStep at h
  split at h
  · cases h
  · split at h
    · exact .inl ⟨_, ‹_›, ‹_›, by simpa using h.symm⟩
    · exact .inr (.inl ⟨_, ‹_›, ‹_›, h⟩)
  · exact .inr (.inr ⟨_, _, _, ‹_›, by simpa using h.symm⟩)

/-- Everything `submit` can do when it answers a next state. -/
theorem submitStep_cases {c : Command} {s t : State} (h : submitStep c s = .next t) :
    s.disp = .idle ∧ c.fits s.params = true ∧ t = { s with cmd := c, disp := .busy0 } := by
  unfold submitStep at h
  split at h
  · split at h
    · exact ⟨‹_›, ‹_›, by simpa using h.symm⟩
    · cases h
  · cases h

/-- A `tick` event answers what `tick()` answers. -/
theorem tickStep_cases {s t : State} (h : tickStep s = .next t) : tick s = .ok t := by
  unfold tickStep at h
  split at h
  · simpa using ‹tick s = _›.trans (by simpa using h)
  · cases h

/-- Everything `imu_sample` can do when it answers a next state. -/
theorem sampleStep_cases {f : Frame} {s t : State} (h : sampleStep f s = .next t) :
    s.disp = .idle ∧ t = s.imuSample f := by
  unfold sampleStep at h
  split at h
  · exact ⟨‹_›, by simpa using h.symm⟩
  · cases h

/-- Events of two lists one after the other. -/
theorem runEvents_append {es fs : List Event} {s t : State} (h : runEvents es s = .next t) :
    runEvents (es ++ fs) s = runEvents fs t := by
  induction es generalizing s with
  | nil => simp only [runEvents, Host.Outcome.next.injEq] at h; subst h; rfl
  | cons e es ih =>
    simp only [runEvents, List.cons_append] at h ⊢
    split at h
    · exact ih h
    · cases h
    · cases h

/-- Steps with scheduled events are those events' steps: the first one is taken off the schedule. -/
theorem step_scheduled {s : State} {e : Event} {es : List Event} (h : s.schedule = e :: es) :
    step s = stepEvent e { s with schedule := es } := by
  simp [step, State.nextEvent, h]

end Sys2Proof.Machine
end

