-- ==== Sys2Proof/Laws/PerInstr.lean ====
section
/-! SUPPORT. Statements for all instructions, one lemma per constructor of `Instr`. -/

namespace Sys2Proof.Laws

/-! ## The payload an instruction encodes to has its command's fixed size (R61, R64) -/

/-- The payload of the instruction's encoding has the size `DECODE` checks for. -/
def PayloadSize.Statement (i : Instr) : Prop := i.payload.length = i.opcode.size

theorem PayloadSize.setTargetFreq (mask : Byte) (freq : Half) (direction : Byte) :
    PayloadSize.Statement (.setTargetFreq mask freq direction) := rfl
theorem PayloadSize.setTargetDelta (mask : Byte) (freq : Half) (target : Word) :
    PayloadSize.Statement (.setTargetDelta mask freq target) := rfl
theorem PayloadSize.getDeltaSteps (mask : Byte) :
    PayloadSize.Statement (.getDeltaSteps mask) := rfl
theorem PayloadSize.getImuMeasurement : PayloadSize.Statement .getImuMeasurement := rfl
theorem PayloadSize.setIsrFreq (freq : Half) : PayloadSize.Statement (.setIsrFreq freq) := rfl
theorem PayloadSize.enableCnc : PayloadSize.Statement .enableCnc := rfl
theorem PayloadSize.disableCnc : PayloadSize.Statement .disableCnc := rfl
theorem PayloadSize.setDeltaSteps (mask : Byte) (value : Word) :
    PayloadSize.Statement (.setDeltaSteps mask value) := rfl
theorem PayloadSize.getIsrFreq : PayloadSize.Statement .getIsrFreq := rfl

/-! ## An instruction's own id is found again (R63) -/

/-- With an injective assignment of ids, the id an instruction is sent under names its command. -/
def IdFound.Statement (i : Instr) : Prop :=
  ∀ ids : CmdIds, ids.injective = true → ids.find (ids.get i.opcode) = some i.opcode

/-- With injective ids, looking up a command's id gives the command. -/
theorem CmdIds.find_get {ids : CmdIds} (h : ids.injective = true) (c : Opcode) :
    ids.find (ids.get c) = some c := by
  cases hf : ids.find (ids.get c) with
  | none =>
    simp only [CmdIds.find, List.find?_eq_none] at hf
    exact absurd (hf c (by cases c <;> decide)) (by simp)
  | some d =>
    have hd : ids.get d = ids.get c := by simpa using List.find?_some hf
    simp only [CmdIds.injective, List.all_eq_true] at h
    have := h d (by cases d <;> decide) c (by cases c <;> decide)
    simp only [hd, bne_self_eq_false, Bool.or_false, beq_iff_eq] at this
    rw [this]

theorem IdFound.setTargetFreq (mask : Byte) (freq : Half) (direction : Byte) :
    IdFound.Statement (.setTargetFreq mask freq direction) := fun _ h => CmdIds.find_get h _
theorem IdFound.setTargetDelta (mask : Byte) (freq : Half) (target : Word) :
    IdFound.Statement (.setTargetDelta mask freq target) := fun _ h => CmdIds.find_get h _
theorem IdFound.getDeltaSteps (mask : Byte) :
    IdFound.Statement (.getDeltaSteps mask) := fun _ h => CmdIds.find_get h _
theorem IdFound.getImuMeasurement : IdFound.Statement .getImuMeasurement :=
  fun _ h => CmdIds.find_get h _
theorem IdFound.setIsrFreq (freq : Half) : IdFound.Statement (.setIsrFreq freq) :=
  fun _ h => CmdIds.find_get h _
theorem IdFound.enableCnc : IdFound.Statement .enableCnc := fun _ h => CmdIds.find_get h _
theorem IdFound.disableCnc : IdFound.Statement .disableCnc := fun _ h => CmdIds.find_get h _
theorem IdFound.setDeltaSteps (mask : Byte) (value : Word) :
    IdFound.Statement (.setDeltaSteps mask value) := fun _ h => CmdIds.find_get h _
theorem IdFound.getIsrFreq : IdFound.Statement .getIsrFreq := fun _ h => CmdIds.find_get h _

end Sys2Proof.Laws
end

