-- ==== Sys2Proof/Tests/Slice0.lean ====
section
/-! SUPPORT. Tests. Expected values are the vectors of `95_test_vectors.md`, named in each comment, or are
computed by hand from the rule named. The last part shows, for each obligation with hypotheses, a state
and operands that meet them together. -/

namespace Sys2Proof.Tests

open Sys2Proof Sys2Proof.Machine

/-! ## Helpers -/

/-- The next state of an outcome, if it is one. -/
def view (o : Host.Outcome State Fault Refusal) : Option State :=
  match o with
  | .next t => some t
  | .fault _ => none
  | .refused _ => none

/-- The fault of an outcome, if it is one. -/
def faultOf (o : Host.Outcome State Fault Refusal) : Option Fault :=
  match o with
  | .next _ => none
  | .fault f => some f
  | .refused _ => none

/-- What `tick` faults with, if it does. -/
def tickFault (s : State) : Option Fault :=
  match tick s with
  | .ok _ => none
  | .error f => some f

/-- An axis in the notation of `95_test_vectors.md`: mode, rate, direction, target, position, counter. -/
def fc (freq : Half) (dir : Bool) (target delta : Word) (counter : Half) : AxisState :=
  ⟨delta, freq, dir, .frequencyControl, target, counter⟩

def dc (freq : Half) (dir : Bool) (target delta : Word) (counter : Half) : AxisState :=
  ⟨delta, freq, dir, .deltaControl, target, counter⟩

/-- An axis right after power-on, at position 0. -/
def rest : AxisState := fc 65535 true 77 0 0

/-- An idle, unsuspended block with these axes and this rate, no samples looked at. -/
def blk (rate : Half) (x y z : AxisState) : State :=
  { State.reset with axes := ⟨x, y, z⟩, tickRate := rate, isrSuspended := false }

/-- The block with a command latched. -/
def latched (s : State) (c : Command) : State := { s with cmd := c, disp := .busy0 }

/-! ## WellFormed: each check refuses an ill-formed term -/

theorem test_ids_injective : CmdIds.reference.injective = true := by decide
theorem test_ids_clash : (⟨0, 1, 2, 3, 4, 5, 6, 7, 0⟩ : CmdIds).injective = false := by decide
theorem test_params_ok : Params.reference.wellFormed = true := by decide
theorem test_params_short_payload :
    ({ Params.reference with maxPayload := 6 } : Params).wellFormed = false := by decide
theorem test_params_clash :
    ({ Params.reference with cmdIds := ⟨0, 0, 2, 3, 4, 5, 6, 7, 8⟩ } : Params).wellFormed = false := by
  decide
/-- V35. -/
theorem test_unknown_id : Command.knownId .reference ⟨0x09, []⟩ = false := by decide
/-- V23. -/
theorem test_wrong_size : Command.rightSize .reference ⟨0x00, [0x05, 0xFA, 0x00]⟩ = false := by decide
theorem test_too_long :
    Command.fits { Params.reference with maxPayload := 7 } ⟨0x08, List.replicate 8 0⟩ = false := by
  decide
theorem test_packet_unknown : Command.wellFormed .reference ⟨0x7F, []⟩ = false := by decide
theorem test_packet_size : Command.wellFormed .reference ⟨0x03, [0x00]⟩ = false := by decide
theorem test_packet_ok : Command.wellFormed .reference ⟨0x02, [0x01]⟩ = true := by decide

/-! ## Decoding words written out from the spec's formats -/

/-- What the reference decoder reads from a command's link bytes. -/
def dec (id : Byte) (pay : List Byte) : Option Instr :=
  match decode .reference ⟨id, pay⟩ with
  | .ok i => some i
  | .error _ => none

/-- The error the reference decoder names. -/
def err (id : Byte) (pay : List Byte) : Option CommandError :=
  match decode .reference ⟨id, pay⟩ with
  | .ok _ => none
  | .error e => some e

/-- V1, V2, V3, V6. -/
theorem test_decode_setTargetFreq :
    dec 0x00 [0x05, 0xFA, 0x00, 0x01] = some (.setTargetFreq 0x05 250 1) ∧
    dec 0x00 [0x02, 0x10, 0x27, 0x00] = some (.setTargetFreq 0x02 10000 0) ∧
    dec 0x00 [0xFF, 0x01, 0x00, 0x02] = some (.setTargetFreq 0xFF 1 2) ∧
    dec 0x00 [0x07, 0xFF, 0xFF, 0x01] = some (.setTargetFreq 0x07 65535 1) := by decide

/-- V7 to V10. -/
theorem test_decode_setTargetDelta :
    dec 0x01 [0x02, 0xE8, 0x03, 0x02, 0x00, 0x00, 0x00] = some (.setTargetDelta 0x02 1000 2) ∧
    dec 0x01 [0x04, 0xFF, 0xFF, 0x00, 0x00, 0x00, 0x80] =
      some (.setTargetDelta 0x04 65535 (BitVec.ofInt 32 (-2147483648))) ∧
    dec 0x01 [0x01, 0x01, 0x00, 0xFF, 0xFF, 0xFF, 0x7F] =
      some (.setTargetDelta 0x01 1 2147483647) ∧
    dec 0x01 [0x07, 0xC8, 0x00, 0xFF, 0xFF, 0xFF, 0xFF] =
      some (.setTargetDelta 0x07 200 (BitVec.ofInt 32 (-1))) := by decide

/-- V11 to V13. -/
theorem test_decode_queries :
    dec 0x02 [0x01] = some (.getDeltaSteps 0x01) ∧ dec 0x02 [0x06] = some (.getDeltaSteps 0x06) ∧
    dec 0x03 [] = some .getImuMeasurement ∧ dec 0x08 [] = some .getIsrFreq := by decide

/-- V14 to V18, V22. -/
theorem test_decode_config :
    dec 0x04 [0xE8, 0x03] = some (.setIsrFreq 1000) ∧ dec 0x04 [0x00, 0x00] = some (.setIsrFreq 0) ∧
    dec 0x04 [0xFF, 0xFF] = some (.setIsrFreq 65535) ∧ dec 0x05 [] = some .enableCnc ∧
    dec 0x06 [] = some .disableCnc := by decide

/-- V19 to V21. -/
theorem test_decode_setDeltaSteps :
    dec 0x07 [0x02, 0xFD, 0xFF, 0xFF, 0xFF] = some (.setDeltaSteps 0x02 (BitVec.ofInt 32 (-3))) ∧
    dec 0x07 [0x07, 0x00, 0x00, 0x00, 0x00] = some (.setDeltaSteps 0x07 0) ∧
    dec 0x07 [0x01, 0x00, 0x01, 0x00, 0x00] = some (.setDeltaSteps 0x01 256) := by decide

/-- V23 to V34. -/
theorem test_decode_wrong_sizes :
    err 0x00 [0x05, 0xFA, 0x00] = some .invalidPayloadSize ∧
    err 0x00 [0x05, 0xFA, 0x00, 0x01, 0x00] = some .invalidPayloadSize ∧
    err 0x00 [] = some .invalidPayloadSize ∧
    err 0x01 [0x02, 0xE8, 0x03, 0x02, 0x00, 0x00] = some .invalidPayloadSize ∧
    err 0x02 [] = some .invalidPayloadSize ∧ err 0x02 [0x01, 0x00] = some .invalidPayloadSize ∧
    err 0x03 [0x00] = some .invalidPayloadSize ∧ err 0x04 [0xE8] = some .invalidPayloadSize ∧
    err 0x05 [0x01] = some .invalidPayloadSize ∧ err 0x06 [0x00] = some .invalidPayloadSize ∧
    err 0x07 [0x02, 0xFD, 0xFF, 0xFF] = some .invalidPayloadSize ∧
    err 0x08 [0x00, 0x00] = some .invalidPayloadSize := by decide

/-- V35 to V37. -/
theorem test_decode_unknown :
    err 0x09 [] = some .unknownCommand ∧ err 0x7F [] = some .unknownCommand ∧
    err 0xFF [0x05, 0xFA, 0x00, 0x01] = some .unknownCommand := by decide

/-- The three encodings of section 2.1. -/
theorem test_encode :
    (encode .reference (.setTargetDelta 0x03 513 (BitVec.ofInt 32 (-2)))).link =
      [0x01, 0x03, 0x01, 0x02, 0xFE, 0xFF, 0xFF, 0xFF] ∧
    (encode .reference (.setDeltaSteps 0x04 100000)).link = [0x07, 0x04, 0xA0, 0x86, 0x01, 0x00] ∧
    (encode .reference (.setIsrFreq 258)).link = [0x04, 0x02, 0x01] := by decide

/-- V1 and V7 as opcode-table words, bit 0 the least significant bit of the id byte; an id alone is
filled up with zeros. -/
theorem test_table_word :
    decodeTableWord 40 0x0100FA0500 = some (.setTargetFreq 0x05 250 1) ∧
    decodeTableWord 64 0x0000000203E80201 = some (.setTargetDelta 0x02 1000 2) ∧
    decodeTableWord 24 0x03E804 = some (.setIsrFreq 1000) ∧
    decodeTableWord 8 0x07 = some (.setDeltaSteps 0 0) ∧
    decodeTableWord 8 0x05 = some .enableCnc ∧ decodeTableWord 8 0x09 = none := by decide

/-- The first step after reset runs the placed command (V95, V96). -/
theorem test_first_step :
    (view (step (State.reset.withFetchWord 24 0x03E804))).map
      (fun t => (t.tickRate, t.disp, t.resp.ok)) = some (1000, .idle, true) ∧
    (view (step (State.reset.withFetchWord 8 0x05))).map
      (fun t => (t.shieldEnabled, t.isrSuspended)) = some (true, false) := by decide

/-! ## Engine operations (V40 to V53) -/

/-- V40. -/
theorem test_init :
    (State.reset.init ⟨1, BitVec.ofInt 32 (-2), 3⟩).axes =
      ⟨fc 65535 true 0 1 0, fc 65535 true 0 (BitVec.ofInt 32 (-2)) 0, fc 65535 true 0 3 0⟩ := by decide

/-- V41, V43. -/
theorem test_set_target_freq :
    ((blk 0 (dc 300 true 40 17 2) rest rest).setTargetFreq .x 200 false).axes.x =
      fc 200 false 40 17 0 ∧
    ((blk 0 (fc 200 false 40 17 1) rest rest).setTargetFreq .x 65535 true).axes.x =
      fc 65535 true 40 17 0 := by decide

/-- V46, V47. -/
theorem test_set_target_delta :
    ((blk 0 (dc 300 true 40 17 2) rest rest).setTargetDelta .x 500 17).axes.x =
      fc 65535 true 40 17 0 ∧
    ((blk 0 (fc 65535 true 77 (BitVec.ofInt 32 (-2147483648)) 0) rest rest).setTargetDelta .x 1
      2147483647).axes.x = dc 1 true 2147483647 (BitVec.ofInt 32 (-2147483648)) 0 := by decide

/-- V49, V51. -/
theorem test_set_delta_and_rate :
    ((blk 0 rest (dc 100 true 5 2 0) rest).setDeltaSteps .y 10).axes.y = dc 100 true 5 10 0 ∧
    ((blk 1000 (fc 100 true 77 0 6) rest rest).setTickRate 500).axes.x = fc 100 true 77 0 6 := by
  decide

/-! ## Commands: one execution each -/

/-- V71. -/
theorem test_setTargetFreq :
    (view (exec (.setTargetFreq 0x04 500 0)
        (blk 1000 (fc 250 true 77 2 2) rest (fc 250 true 77 2 2)))).map
      (fun t => (t.axes, t.isrSuspended, t.resp.ok, t.resp.len)) =
      some (⟨fc 250 true 77 2 2, rest, fc 500 false 77 2 0⟩, false, true, .zero) := by decide

/-- V5 and V3: bits 7:3 of the mask select nothing, a direction byte of 2 is `true`. -/
theorem test_setTargetFreq_reserved :
    (view (exec (.setTargetFreq 0xF8 250 1) (blk 1000 rest rest rest))).map State.axes =
      some ⟨rest, rest, rest⟩ ∧
    (view (exec (.setTargetFreq 0xFF 1 2) (blk 1000 (fc 9 false 77 0 0) rest rest))).map
      (fun t => t.axes.x) = some (fc 1 true 77 0 0) := by decide

/-- V70: one command, three outcomes. -/
theorem test_setTargetDelta :
    (view (exec (.setTargetDelta 0x07 200 5)
        (blk 1000 (fc 65535 true 77 5 0) (fc 250 true 77 0 3) (dc 100 true 20 9 1)))).map
      State.axes =
      some ⟨fc 65535 true 77 5 0, dc 200 true 5 0 0, dc 200 false 5 9 0⟩ := by decide

/-- V73 and V74: the axis stays in `DeltaControl`, and an empty mask still releases the guard. -/
theorem test_setDeltaSteps :
    (view (exec (.setDeltaSteps 0x01 5) (blk 1000 (dc 100 true 5 3 0) rest rest))).map
      (fun t => t.axes.x) = some (dc 100 true 5 5 0) ∧
    (view (exec (.setDeltaSteps 0x00 0) State.reset)).map
      (fun t => (t.axes, t.isrSuspended)) = some (State.reset.axes, false) := by decide

/-- The block of section 2.5. -/
def positions : State :=
  blk 1000 (fc 65535 true 77 3 0) (fc 65535 true 77 (BitVec.ofInt 32 (-1)) 0)
    (fc 65535 true 77 (BitVec.ofInt 32 (-2)) 0)

/-- V80, V82, V84, V86. -/
theorem test_getDeltaSteps :
    (view (exec (.getDeltaSteps 0x01) positions)).map State.replies =
      some [⟨true, [0x03, 0x00, 0x00, 0x00]⟩] ∧
    (view (exec (.getDeltaSteps 0x05) positions)).map State.replies =
      some [⟨true, [0xFE, 0xFF, 0xFF, 0xFF]⟩] ∧
    (view (exec (.getDeltaSteps 0x03) positions)).map State.replies =
      some [⟨true, [0xFF, 0xFF, 0xFF, 0xFF]⟩] ∧
    (view (exec (.getDeltaSteps 0x0A) positions)).map State.replies =
      some [⟨true, [0xFF, 0xFF, 0xFF, 0xFF]⟩] := by decide

/-- V85: with no axis it succeeds with four bytes. -/
theorem test_getDeltaSteps_empty :
    (view (exec (.getDeltaSteps 0x00) positions)).map
      (fun t => (t.resp.ok, t.resp.len, t.disp, t.replies.map fun r => r.bytes.length)) =
      some (true, .four, .idle, [4]) := by decide

/-- V87, V88. -/
theorem test_getIsrFreq :
    (view (exec .getIsrFreq positions)).map State.replies =
      some [⟨true, [0xE8, 0x03, 0x00, 0x00]⟩] ∧
    (view (exec .getIsrFreq (blk 65535 rest rest rest))).map State.replies =
      some [⟨true, [0xFF, 0xFF, 0x00, 0x00]⟩] := by decide

/-- A block whose window is one sample, the frame itself. -/
def oneSample (f : Frame) : State :=
  { State.reset with params := { Params.reference with imuLog2W := 0 }, imuBuf := [f] }

/-- V90. -/
theorem test_getImuMeasurement :
    (view (exec .getImuMeasurement (oneSample ⟨1, BitVec.ofInt 16 (-1), 256, 0, 0, 0, 0, 0,
        BitVec.ofInt 16 (-32768)⟩))).map State.replies =
      some [⟨true, [0x01, 0x00, 0xFF, 0xFF, 0x00, 0x01, 0, 0, 0, 0, 0, 0, 0, 0, 0, 0, 0x00, 0x80]⟩] := by
  decide

/-- V91, and the suspend bit is not written (V99). -/
theorem test_getImuMeasurement_second :
    (view (exec .getImuMeasurement (oneSample ⟨32767, BitVec.ofInt 16 (-2), 0, 0, 0, 0, 0, 0,
        0⟩))).map (fun t => (t.replies, t.isrSuspended)) =
      some ([⟨true, [0xFF, 0x7F, 0xFE, 0xFF, 0, 0, 0, 0, 0, 0, 0, 0, 0, 0, 0, 0, 0, 0]⟩], true) := by
  decide

/-- V95, V99. -/
theorem test_setIsrFreq :
    (view (exec (.setIsrFreq 1000) State.reset)).map
      (fun t => (t.tickRate, t.axes, t.isrSuspended)) =
      some (1000, State.reset.axes, true) := by decide

/-- V96, V97. -/
theorem test_enableCnc :
    (view (exec .enableCnc State.reset)).map (fun t => (t.shieldEnabled, t.isrSuspended)) =
      some (true, false) ∧
    (view (exec .enableCnc { positions with shieldEnabled := true })).map
      (fun t => (t.shieldEnabled, t.isrSuspended, t.axes)) =
      some (true, false, positions.axes) := by decide

/-- V98, its first command. -/
theorem test_disableCnc :
    (view (exec .disableCnc { blk 1000 (fc 250 true 77 2 2) rest rest with
        shieldEnabled := true })).map (fun t => (t.shieldEnabled, t.isrSuspended, t.axes.x)) =
      some (false, true, fc 250 true 77 2 2) := by decide

/-- V102: a failed command takes no bracket. -/
theorem test_failed_command :
    (view (stepEvent .run (latched State.reset ⟨0x00, [0x01]⟩))).map
      (fun t => (t.resp.ok, t.resp.len, t.isrSuspended, t.disp)) =
      some (false, .zero, true, .idle) := by decide

/-! ## `tick` -/

/-- The threshold table of section 2.3. -/
theorem test_threshold :
    threshold 1000 100 = 10 ∧ threshold 1000 300 = 3 ∧ threshold 1000 999 = 1 ∧
    threshold 1000 1000 = 1 ∧ threshold 1000 1001 = 0 ∧ threshold 1000 65534 = 0 ∧
    threshold 65535 1 = 65535 ∧ threshold 65535 65534 = 1 ∧ threshold 0 1 = 0 ∧
    threshold 1 1 = 1 := by decide

/-- One tick on axis X: the axis and the trace after it. -/
def tickX (rate : Half) (x : AxisState) : Option (AxisState × List Pulse) :=
  (view (stepEvent .tick (blk rate x rest rest))).map fun t => (t.axes.x, t.trace)

/-- V54 at its first and its fourth tick. -/
theorem test_tick_counts :
    tickX 1000 (fc 250 true 77 0 0) = some (fc 250 true 77 0 1, []) ∧
    tickX 1000 (fc 250 true 77 0 3) = some (fc 250 true 77 1 0, [⟨.x, true⟩]) := by decide

/-- V56, V64: the threshold 0 pulses at every tick. -/
theorem test_tick_threshold_zero :
    tickX 1000 (fc 2000 true 77 0 0) = some (fc 2000 true 77 1 0, [⟨.x, true⟩]) ∧
    tickX 0 (fc 1 false 77 0 0) = some (fc 1 false 77 (BitVec.ofInt 32 (-1)) 0, [⟨.x, false⟩]) := by
  decide

/-- V57 at its fourth tick: arrival; V68: equality before the pulse is no arrival. -/
theorem test_tick_arrival :
    tickX 1000 (dc 500 true 2 1 1) = some (fc 65535 true 2 2 0, [⟨.x, true⟩]) ∧
    tickX 1000 (dc 1000 true 5 5 0) = some (dc 1000 true 5 6 0, [⟨.x, true⟩]) := by decide

/-- V59, V60, V61: inactive, suspended, suspended with the rate 0. -/
theorem test_tick_idle :
    tickX 1000 (fc 65535 true 77 7 0) = some (fc 65535 true 77 7 0, []) ∧
    (view (stepEvent .tick { blk 1000 (fc 1000 true 77 7 0) rest rest with
      isrSuspended := true })).map (fun t => t.axes.x) = some (fc 1000 true 77 7 0) ∧
    (view (stepEvent .tick { blk 1000 (fc 0 true 77 7 0) rest rest with
      isrSuspended := true })).map (fun t => t.axes.x) = some (fc 0 true 77 7 0) := by decide

/-- V62. -/
theorem test_tick_divide_by_zero :
    faultOf (stepEvent .tick (blk 1000 (fc 0 true 77 7 0) rest rest)) = some .divideByZero := by
  decide

/-- V63 at its last tick: the counter reaches 65535. -/
theorem test_tick_longest :
    tickX 65535 (fc 1 true 77 0 65534) = some (fc 1 true 77 1 0, [⟨.x, true⟩]) ∧
    tickX 65535 (fc 1 true 77 0 65533) = some (fc 1 true 77 0 65534, []) := by decide

/-- V65, V66 with `wrap`. -/
theorem test_tick_wrap :
    tickX 1000 (fc 1000 true 77 2147483647 0) =
      some (fc 1000 true 77 (BitVec.ofInt 32 (-2147483648)) 0, [⟨.x, true⟩]) ∧
    tickX 1000 (fc 1000 false 77 (BitVec.ofInt 32 (-2147483648)) 0) =
      some (fc 1000 false 77 2147483647 0, [⟨.x, false⟩]) := by decide

/-- V65, V66 with `fault`. -/
theorem test_tick_overflow_fault :
    faultOf (stepEvent .tick { blk 1000 (fc 1000 true 77 2147483647 0) rest rest with
      params := { Params.reference with deltaOverflow := .fault } }) = some .deltaOverflow ∧
    faultOf (stepEvent .tick { blk 1000 (fc 1000 false 77 (BitVec.ofInt 32 (-2147483648)) 0) rest rest
      with params := { Params.reference with deltaOverflow := .fault } }) = some .deltaOverflow := by
  decide

/-- V69. -/
theorem test_tick_order :
    (view (stepEvent .tick { blk 1000 (fc 1000 true 77 0 0) rest (fc 500 false 77 0 1) with
        dirOut := ⟨false, true, true⟩ })).map (fun t => (t.trace, t.axes, t.dirOut)) =
      some ([⟨.x, true⟩, ⟨.z, false⟩],
        ⟨fc 1000 true 77 1 0, rest, fc 500 false 77 (BitVec.ofInt 32 (-1)) 0⟩,
        ⟨true, true, false⟩) := by decide

/-! ## The guard: V100, single steps of it -/

/-- The start of V100, the command latched. -/
def v100 : State :=
  latched (blk 1000 (fc 500 true 77 7 1) rest rest) ⟨0x00, [0x03, 0xFA, 0x00, 0x00]⟩

/-- A tick before `DECODE` pulses; a tick while the guard is held is dropped; the whole command has 12
micro-steps. -/
theorem test_v100 :
    (view (stepEvent .tick v100)).map (fun t => (t.axes.x, t.disp)) =
      some (fc 500 true 77 8 0, .busy0) ∧
    (view (runEvents [.micro, .micro, .tick, .micro, .tick] v100)).map
      (fun t => (t.axes.x, t.trace, t.isrSuspended)) = some (fc 500 true 77 7 1, [], true) ∧
    microCount (.setTargetFreq 0x03 250 0) v100 = 12 := by decide

/-- The counts of section 2.4: V70, V71, V73, V74, and the maximum. -/
theorem test_micro_counts :
    microCount (.setTargetDelta 0x07 200 5)
      (blk 1000 (fc 65535 true 77 5 0) (fc 250 true 77 0 3) (dc 100 true 20 9 1)) = 20 ∧
    microCount (.setTargetFreq 0x04 500 0) State.reset = 8 ∧
    microCount (.setDeltaSteps 0x01 5) State.reset = 5 ∧
    microCount (.setDeltaSteps 0x00 0) State.reset = 4 ∧
    microCount (.setTargetDelta 0x07 1 1) State.reset = 22 := by decide

/-! ## The sampler (section 2.8) and power-on (V110) -/

/-- The average of the first channel over a window of samples of it. -/
def avgAx (log2W : Nat) (xs : List Int) : Int :=
  ((average log2W (xs.map fun v => ⟨BitVec.ofInt 16 v, 0, 0, 0, 0, 0, 0, 0, 0⟩)).get .ax).toInt

theorem test_average_floor :
    avgAx 5 (List.replicate 31 0 ++ [-33]) = -2 ∧ avgAx 5 (List.replicate 31 0 ++ [33]) = 1 ∧
    avgAx 5 (List.replicate 31 0 ++ [-1]) = -1 := by decide

theorem test_average_ends :
    avgAx 5 (List.replicate 32 32767) = 32767 ∧ avgAx 5 (List.replicate 32 (-32768)) = -32768 ∧
    avgAx 1 [-1, 0] = -1 ∧ avgAx 1 [3, 4] = 3 ∧ avgAx 0 [123] = 123 := by decide

/-- V110: the positions, and the control registers at their parameters. -/
theorem test_power_on :
    (view (stepEvent (.reset ⟨1, BitVec.ofInt 32 (-2), 3⟩) positions)).map
      (fun t => ((t.axis .x).deltaSteps, (t.axis .y).deltaSteps, (t.axis .z).deltaSteps)) =
      some (1, BitVec.ofInt 32 (-2), 3) ∧
    (view (stepEvent (.reset ⟨1, BitVec.ofInt 32 (-2), 3⟩) positions)).map
      (fun t => (t.disp, t.isrSuspended, t.trace)) = some (.idle, true, []) := by decide

/-! ## Every obligation with hypotheses: a state and operands that meet them -/

/-- An axis one tick before a pulse, moving up in `FrequencyControl`. -/
def moving : State := blk 1000 (fc 1000 true 77 0 0) rest rest

/-- A state with `run` scheduled and `SET_ISR_FREQ 1000` latched. -/
def scheduledRun : State :=
  { latched moving ⟨0x04, [0xE8, 0x03]⟩ with schedule := [.run] }

theorem witness_StepRunsDecodedCommand :
    scheduledRun.schedule = .run :: [] ∧ scheduledRun.disp = .busy0 ∧
    decode scheduledRun.params.cmdIds scheduledRun.cmd = .ok (.setIsrFreq 1000) := ⟨rfl, rfl, rfl⟩

theorem witness_StepRunsDecodedCommand_placed :
    decode State.reset.params.cmdIds (tableCommand State.reset.params.cmdIds 24 0x03E804) =
      .ok (.setIsrFreq 1000) := rfl

theorem witness_StepTakesNextEvent :
    scheduledRun.schedule = .run :: [] ∧ State.reset.schedule = [] := by decide

/-- The smallest `MAX_PAYLOAD` there may be, and a payload one byte longer. -/
def small : State := { moving with params := { Params.reference with maxPayload := 7 } }

def tooLong : Command := ⟨0x00, List.replicate 8 0⟩

theorem witness_DisabledEventsStopByName :
    (latched moving ⟨0x05, []⟩).disp ≠ .idle ∧ small.disp = .idle ∧
    small.params.maxPayload < tooLong.pay.length := by decide

/-- `submit` and `tick`, each scheduled first and enabled. -/
theorem witness_EnabledEventsAreTaken :
    ({ moving with schedule := [.submit ⟨0x05, []⟩] } : State).enabled (.submit ⟨0x05, []⟩) = true ∧
    ({ moving with schedule := [.tick] } : State).enabled .tick = true ∧
    ({ moving with schedule := [.tick] } : State).tickSafe = true := by decide

/-- A payload of exactly `MAX_PAYLOAD` bytes. -/
theorem witness_SubmitLatchesCommand :
    small.disp = .idle ∧ (List.replicate 7 (0 : Byte)).length ≤ small.params.maxPayload ∧
    ∃ t, stepEvent (.submit ⟨0x00, List.replicate 7 0⟩) small = .next t :=
  ⟨rfl, by decide, _, rfl⟩

theorem witness_CommandStaysLatched :
    (∃ t, stepEvent .run (latched moving ⟨0x05, []⟩) = .next t) ∧
    (∀ c, Event.run ≠ .submit c) ∧ (∀ d, Event.run ≠ .reset d) :=
  ⟨⟨_, rfl⟩, fun _ => by simp, fun _ => by simp⟩

theorem witness_ParametersNeverChange : ∃ t, step scheduledRun = .next t := ⟨_, rfl⟩

theorem witness_DecodeOfEncodeIsIdentity :
    CmdIds.reference.injective = true ∧
    (⟨0x80, 1, 2, 3, 4, 5, 6, 7, 0xFF⟩ : CmdIds).injective = true := by decide

theorem witness_EncodeOfDecodeIsIdentity :
    decode .reference ⟨0x07, [0xFF, 0x00, 0x00, 0x00, 0x80]⟩ = .ok (.setDeltaSteps 0xFF 0x80000000) :=
  rfl

/-- The longest command, `SET_TARGET_DELTA`, and an empty one. -/
theorem witness_KnownIdAndLengthAlwaysSucceeds :
    moving.params.cmdIds.injective = true ∧
    (latched moving ⟨0x01, [7, 1, 0, 0, 0, 0, 0]⟩).disp = .busy0 ∧
    (0x01 : Byte) = moving.params.cmdIds.get .setTargetDelta ∧
    [(7 : Byte), 1, 0, 0, 0, 0, 0].length = Opcode.setTargetDelta.size ∧
    (0x08 : Byte) = moving.params.cmdIds.get .getIsrFreq ∧
    ([] : List Byte).length = Opcode.getIsrFreq.size := by decide

/-- The first id after the reference ids. -/
theorem witness_UnknownIdFailsAndWritesNothing :
    (latched moving ⟨0x09, []⟩).disp = .busy0 ∧
    ∀ c : Opcode, moving.params.cmdIds.get c ≠ (latched moving ⟨0x09, []⟩).cmd.id :=
  ⟨rfl, fun c => by cases c <;> decide⟩

/-- One byte short and one byte over. -/
theorem witness_WrongLengthFailsAndWritesNothing :
    moving.params.cmdIds.injective = true ∧
    (latched moving ⟨0x00, [5, 0xFA, 0]⟩).disp = .busy0 ∧
    (latched moving ⟨0x00, [5, 0xFA, 0]⟩).cmd.id = moving.params.cmdIds.get .setTargetFreq ∧
    (latched moving ⟨0x00, [5, 0xFA, 0]⟩).cmd.pay.length ≠ Opcode.setTargetFreq.size ∧
    (latched moving ⟨0x00, [5, 0xFA, 0, 1, 0]⟩).cmd.pay.length ≠ Opcode.setTargetFreq.size := by
  decide

theorem witness_FailedCommandWritesOnlyResponse :
    (latched moving ⟨0x09, []⟩).disp = .busy0 ∧
    decode moving.params.cmdIds ⟨0x09, []⟩ = .error .unknownCommand ∧
    decode moving.params.cmdIds ⟨0x08, [0, 0]⟩ = .error .invalidPayloadSize := ⟨rfl, rfl, rfl⟩

/-- The three clauses with a hypothesis: another axis, the sentinel, the rate 0. -/
theorem witness_SetTargetFreqWritesFourRegisters :
    Axis.y ≠ Axis.x ∧ (65535 : Half) = 65535#16 ∧ (0 : Half) = 0#16 := by decide

/-- At the target, and one away from it at an end of the range. -/
theorem witness_SetTargetDeltaCancelsOrMoves :
    (17 : Word) = ((blk 0 (dc 300 true 40 17 2) rest rest).axis .x).deltaSteps ∧
    (0x80000000 : Word) ≠ ((blk 0 (fc 9 true 0 0x7FFFFFFF 0) rest rest).axis .x).deltaSteps ∧
    Axis.z ≠ Axis.x := by decide

theorem witness_SetDeltaStepsWritesPositionOnly : Axis.z ≠ Axis.x ∧ Axis.y ≠ Axis.z := by decide

/-- The ends of the active rates. -/
theorem witness_TickRateIsStoredAsGiven :
    ((blk 0 (fc 65534 true 0 0 0) (fc 1 true 0 0 0) rest).axis .x).targetFreq ≠ 65535#16 ∧
    ((blk 0 (fc 65534 true 0 0 0) (fc 1 true 0 0 0) rest).axis .x).targetFreq ≠ 0#16 ∧
    ((blk 0 (fc 65534 true 0 0 0) (fc 1 true 0 0 0) rest).axis .y).targetFreq ≠ 65535#16 ∧
    ((blk 0 (fc 65534 true 0 0 0) (fc 1 true 0 0 0) rest).axis .y).targetFreq ≠ 0#16 ∧
    moving.params.deltaOverflow = .wrap := by decide

theorem witness_GetDeltaStepsReturnsLastSelected :
    lastSelected 0x01 = some .x ∧ lastSelected 0x03 = some .y ∧ lastSelected 0xFF = some .z := by
  decide

theorem witness_GetDeltaStepsWithNoAxisSucceeds :
    lastSelected 0x00 = none ∧ lastSelected 0xF8 = none := by decide

theorem witness_GuardedCommandClearsGlobalStop :
    Instr.isGuarded (.getDeltaSteps 1) = true ∧ Instr.isGuarded .getIsrFreq = false ∧
    Instr.getIsrFreq ≠ .enableCnc ∧ Instr.getIsrFreq ≠ .disableCnc := by decide

/-- `GET_ISR_FREQ` is none of the commands the clauses except. -/
theorem witness_EachRegisterHasItsOwnWriters :
    (∃ t, exec .getIsrFreq moving = .next t) ∧ (∀ f, Instr.getIsrFreq ≠ .setIsrFreq f) ∧
    Instr.getIsrFreq ≠ .enableCnc ∧ Instr.getIsrFreq ≠ .disableCnc ∧
    (∀ m v, Instr.getIsrFreq ≠ .setDeltaSteps m v) ∧
    (∀ m f d, Instr.getIsrFreq ≠ .setTargetFreq m f d) ∧
    (∀ m f d, Instr.getIsrFreq ≠ .setTargetDelta m f d) :=
  ⟨⟨_, rfl⟩, fun _ => by simp, by decide, by decide, fun _ _ => by simp, fun _ _ _ => by simp,
    fun _ _ _ => by simp⟩

theorem witness_SuspendedTickChangesNothing : State.reset.isrSuspended = true := by decide

/-- The four clauses: inactive, the rate 0, counting just below the threshold, the threshold itself at
the largest counter. -/
theorem witness_AxisTickCountsThenPulses :
    (rest.targetFreq = 65535#16 ∧ (fc 0 true 0 0 0).targetFreq = 0#16) ∧
    ((fc 1 true 0 0 65533).targetFreq ≠ 65535#16 ∧ (fc 1 true 0 0 65533).targetFreq ≠ 0#16 ∧
      (fc 1 true 0 0 65533).tickCounter.toNat ≤ 65534 ∧
      (fc 1 true 0 0 65533).tickCounter.toNat + 1 <
        (65535 : Half).toNat / (fc 1 true 0 0 65533).targetFreq.toNat) ∧
    ((fc 1 true 0 0 65534).tickCounter.toNat ≤ 65534 ∧
      (65535 : Half).toNat / (fc 1 true 0 0 65534).targetFreq.toNat ≤
        (fc 1 true 0 0 65534).tickCounter.toNat + 1 ∧
      (blk 65535 (fc 1 true 0 0 65534) rest rest).params.deltaOverflow = .wrap) := by decide

/-- A pulse that arrives and one that does not. -/
theorem witness_ArrivalStopsTheAxisInTheSameTick :
    (∃ t, axisTick .x (blk 1000 (dc 1000 true 1 0 0) rest rest) = .ok t ∧
      t.trace ≠ (blk 1000 (dc 1000 true 1 0 0) rest rest).trace ∧
      (t.axis .x).deltaSteps = 1) ∧
    (∃ t, axisTick .x (blk 1000 (dc 1000 true 2 0 0) rest rest) = .ok t ∧
      t.trace ≠ (blk 1000 (dc 1000 true 2 0 0) rest rest).trace ∧
      (t.axis .x).deltaSteps ≠ 2) :=
  ⟨⟨_, rfl, by decide, by decide⟩, ⟨_, rfl, by decide, by decide⟩⟩

/-- The last step inside the range and the first outside it, at both ends. -/
theorem witness_PositionStepsByOneOrOverflows :
    (fc 1000 true 0 0 0).targetFreq ≠ 65535#16 ∧ (fc 1000 true 0 0 0).targetFreq ≠ 0#16 ∧
    (fc 1000 true 0 0 0).tickCounter.toNat ≤ 65534 ∧
    (1000 : Half).toNat / (fc 1000 true 0 0 0).targetFreq.toNat ≤
      (fc 1000 true 0 0 0).tickCounter.toNat + 1 ∧
    (0x7FFFFFFE : Word).toInt + 1 = 2147483647 ∧ (0x7FFFFFFF : Word).toInt + 1 = 2147483648 ∧
    (0x80000001 : Word).toInt + -1 = -2147483648 ∧
    (0x80000000 : Word).toInt + -1 = -2147483649 ∧
    Params.reference.deltaOverflow = .wrap ∧
    ({ Params.reference with deltaOverflow := .fault } : Params).deltaOverflow = .fault := by decide

theorem witness_ZeroRateFaultsAtUnsuspendedTick :
    (blk 1000 rest rest (fc 0 true 0 0 0)).isrSuspended = false ∧
    (blk 1000 rest rest (fc 0 true 0 0 0)).params.deltaOverflow = .wrap ∧
    ((blk 1000 rest rest (fc 0 true 0 0 0)).axis .z).targetFreq = 0#16 := by decide

theorem witness_TickWritesOnlyAxesAndOutputs : ∃ t, stepEvent .tick moving = .next t := ⟨_, rfl⟩

theorem witness_TickServesAxesIndependently :
    moving.isrSuspended = false ∧ ∃ t, tick moving = .ok t := ⟨rfl, _, rfl⟩

theorem witness_EveryPulseIsCountedOnce : ∃ t, stepEvent .tick moving = .next t := ⟨_, rfl⟩

theorem witness_OnlyTickEmitsPulses :
    (∃ t, stepEvent .micro (latched moving ⟨0x05, []⟩) = .next t) ∧
    (∀ d, Event.micro ≠ .reset d) ∧ Event.micro ≠ .tick :=
  ⟨⟨_, rfl⟩, fun _ => by simp, by decide⟩

/-- Upward from the target (V68), and downward from the target. -/
theorem witness_StaleDirectionMovesAway :
    (∃ t, axisTick .x (blk 1000 (dc 1000 true 5 5 0) rest rest) = .ok t ∧ t.trace ≠ [] ∧
      (5 : Word).toInt ≤ (5 : Word).toInt ∧ (5 : Word).toInt < 2147483647) ∧
    (∃ t, axisTick .x (blk 1000 (dc 1000 false 5 5 0) rest rest) = .ok t ∧ t.trace ≠ [] ∧
      -2147483648 < (5 : Word).toInt) :=
  ⟨⟨_, rfl, by decide, by decide, by decide⟩, ⟨_, rfl, by decide, by decide⟩⟩

theorem witness_FreshAxisPulsesExactly :
    moving.isrSuspended = false ∧ moving.params.deltaOverflow = .wrap ∧
    (∀ b, (moving.axis b).targetFreq ≠ 0#16) ∧ (moving.axis .x).targetFreq ≠ 65535#16 ∧
    (moving.axis .x).controlMode = .frequencyControl ∧ (moving.axis .x).tickCounter = 0#16 :=
  ⟨rfl, rfl, fun b => by cases b <;> decide, by decide, rfl, rfl⟩

/-- An axis set toward a target through zero (V67). -/
def travelling : State := blk 1000 (dc 1000 false (BitVec.ofInt 32 (-1)) 1 0) rest rest

theorem witness_TravelReachesTargetAndStops :
    travelling.isrSuspended = false ∧ travelling.params.deltaOverflow = .wrap ∧
    (∀ b, (travelling.axis b).targetFreq ≠ 0#16) ∧ (travelling.axis .x).targetFreq ≠ 65535#16 ∧
    (travelling.axis .x).controlMode = .deltaControl ∧ (travelling.axis .x).tickCounter = 0#16 ∧
    (travelling.axis .x).targetDelta ≠ (travelling.axis .x).deltaSteps ∧
    (travelling.axis .x).direction =
      decide ((travelling.axis .x).deltaSteps.toInt < (travelling.axis .x).targetDelta.toInt) ∧
    2 = ((travelling.axis .x).targetDelta.toInt - (travelling.axis .x).deltaSteps.toInt).natAbs :=
  ⟨rfl, rfl, fun b => by cases b <;> decide, by decide, rfl, rfl, by decide, by decide, by decide⟩

/-- `fault` positions, the other axes inactive: an axis in `DeltaControl` two pulses before its target. -/
def strict (x : AxisState) : State :=
  { blk 1000 x rest rest with params := { Params.reference with deltaOverflow := .fault } }

/-- One pulse, to the last position before the target, which is the end of the range. -/
theorem witness_SetAxisPulsesExactlyUntilArrival :
    (strict (dc 1000 true 0x7FFFFFFF 0x7FFFFFFD 0)).isrSuspended = false ∧
    (∀ b, b ≠ Axis.x →
      ((strict (dc 1000 true 0x7FFFFFFF 0x7FFFFFFD 0)).axis b).targetFreq = 65535#16) ∧
    (∀ b, ((strict (dc 1000 true 0x7FFFFFFF 0x7FFFFFFD 0)).axis b).targetFreq ≠ 0#16) ∧
    (dc 1000 true 0x7FFFFFFF 0x7FFFFFFD 0).targetFreq ≠ 65535#16 ∧
    (dc 1000 true 0x7FFFFFFF 0x7FFFFFFD 0).tickCounter = 0#16 ∧
    1 = 1 / period 1000 1000 ∧
    -2147483648 ≤ (0x7FFFFFFD : Word).toInt + 1 * (1 : Nat) ∧
    (0x7FFFFFFD : Word).toInt + 1 * (1 : Nat) ≤ 2147483647 ∧
    (∀ j : Nat, 1 ≤ j → j ≤ 1 → (0x7FFFFFFD : Word).toInt + 1 * j ≠ (0x7FFFFFFF : Word).toInt) := by
  refine ⟨rfl, fun b => by cases b <;> decide, fun b => by cases b <;> decide, by decide, rfl, by decide,
    by decide, by decide, fun j h1 h2 => ?_⟩
  obtain rfl : j = 1 := by omega
  decide

/-- To the very end of the range. -/
theorem witness_TravelNeverOverflows :
    (strict (dc 1000 true 0x7FFFFFFF 0x7FFFFFFD 0)).isrSuspended = false ∧
    (∀ b, b ≠ Axis.x →
      ((strict (dc 1000 true 0x7FFFFFFF 0x7FFFFFFD 0)).axis b).targetFreq = 65535#16) ∧
    (dc 1000 true 0x7FFFFFFF 0x7FFFFFFD 0).targetFreq ≠ 0#16 ∧
    (dc 1000 true 0x7FFFFFFF 0x7FFFFFFD 0).targetFreq ≠ 65535#16 ∧
    (dc 1000 true 0x7FFFFFFF 0x7FFFFFFD 0).controlMode = .deltaControl ∧
    (dc 1000 true 0x7FFFFFFF 0x7FFFFFFD 0).tickCounter = 0#16 ∧
    (0x7FFFFFFF : Word) ≠ 0x7FFFFFFD ∧
    true = decide ((0x7FFFFFFD : Word).toInt < (0x7FFFFFFF : Word).toInt) ∧
    2 = ((0x7FFFFFFF : Word).toInt - (0x7FFFFFFD : Word).toInt).natAbs :=
  ⟨rfl, fun b => by cases b <;> decide, by decide, by decide, rfl, rfl, by decide, by decide, by decide⟩

/-- The dispatcher between `ACQUIRE` and `RELEASE`, the guard held. -/
def inside : State :=
  { moving with isrSuspended := true
                disp := .busy 2 [.write (.deltaSteps .x 5), .release] ⟨.zero, false⟩ }

theorem witness_TickInsideBracketChangesNothing : inside.Inv ∧ inside.inBracket = true := by decide

theorem witness_MicroStepsRefineExec :
    v100.disp = .busy0 ∧ decode v100.params.cmdIds v100.cmd = .ok (.setTargetFreq 0x03 250 0) ∧
    0 < microCount (.setTargetFreq 0x03 250 0) v100 := ⟨rfl, rfl, by decide⟩

/-- `ENABLE_CNC` with a tick after each of its micro-steps. -/
theorem witness_CommandsAreAtomicToTicks :
    (latched moving ⟨0x05, []⟩).disp = .busy0 ∧
    (∀ e ∈ [Event.micro, .tick, .micro, .tick, .micro, .tick, .micro], e = .micro ∨ e = .tick) ∧
    ∃ t, runEvents [.micro, .tick, .micro, .tick, .micro, .tick, .micro]
      (latched moving ⟨0x05, []⟩) = .next t ∧ t.disp = .idle :=
  ⟨rfl, by decide, _, rfl, rfl⟩

/-- A counter at the bound, about to pulse. -/
theorem witness_StepKeepsInvariant :
    ({ blk 65535 (fc 1 true 0 0 65534) rest rest with schedule := [.tick] } : State).Inv ∧
    ∃ t, step { blk 65535 (fc 1 true 0 0 65534) rest rest with schedule := [.tick] } = .next t :=
  ⟨by decide, _, rfl⟩

theorem witness_DutifulHostNeverDividesByZero :
    moving.zeroFree = true ∧
    ({ moving with schedule := [.submit ⟨0x00, [1, 1, 0, 1]⟩] } : State).schedule =
      .submit ⟨0x00, [1, 1, 0, 1]⟩ :: [] ∧
    (Event.submit ⟨0x00, [1, 1, 0, 1]⟩).honoursH1 moving.params.cmdIds = true ∧
    (∃ t, step { moving with schedule := [.submit ⟨0x00, [1, 1, 0, 1]⟩] } = .next t) :=
  ⟨by decide, rfl, by decide, _, rfl⟩

theorem witness_AverageIsFloorOfMean : State.reset.imuBuf.length = 2 ^ 5 := by decide

/-- The last slot of the window, and another one. -/
theorem witness_SampleOverwritesOldestSlot :
    ({ moving with imuWp := 31 } : State).windowOk = true ∧ moving.disp = .idle ∧ (0 : Nat) ≠ 31 := by
  decide

end Sys2Proof.Tests
end

section
/-! The latching of a command by `submit` (R60). -/

namespace Sys2Proof

/-- A command fits when its payload is no longer than `MAX_PAYLOAD` (R25, R41). -/
theorem Command.fits_iff {p : Params} {c : Command} :
    c.fits p = true ↔ c.pay.length ≤ p.maxPayload := decide_eq_true_iff

end Sys2Proof

namespace Sys2Proof.Machine

/-- The next state of `submit`, exactly: it exists while the dispatcher is idle and the command fits,
and then only `cmd` and `disp` are written (R60). -/
theorem submitStep_eq_next_iff {c : Command} {s t : State} :
    submitStep c s = .next t ↔
      s.disp = .idle ∧ c.fits s.params = true ∧ t = { s with cmd := c, disp := .busy0 } := by
  refine ⟨submitStep_cases, ?_⟩
  rintro ⟨hidle, hfits, rfl⟩
  simp only [submitStep, hidle, hfits, if_true]

/-- Settles O10: both clauses are readings of `submitStep_eq_next_iff`. -/
theorem submitLatchesCommand : Obligations.SubmitLatchesCommand := by
  intro s c
  constructor
  · intro hidle hlen
    exact submitStep_eq_next_iff.2 ⟨hidle, Command.fits_iff.2 hlen, rfl⟩
  · intro t hnext
    obtain ⟨hidle, -, -⟩ := submitStep_eq_next_iff.1 hnext
    exact hidle

end Sys2Proof.Machine
end

section
/-! The engine operations that read or write one register (R83, R84, R87 to R89). -/

namespace Sys2Proof.Machine

/-- `set_delta_steps` is a single write to the axis file, so nothing outside that file changes (R83). -/
theorem State.setDeltaSteps_frame (s : State) (a : Axis) (v : Word) :
    s.setDeltaSteps a v = { s with axes := (s.setDeltaSteps a v).axes } :=
  RegWrite.apply_onAxis (w := .deltaSteps a v) rfl s

/-- Only the last of two writes of the guard stands (R87). -/
@[simp] theorem State.suspendIsr_suspendIsr (s : State) (b c : Bool) :
    (s.suspendIsr b).suspendIsr c = s.suspendIsr c := rfl

theorem tick_of_suspended {s : State} (h : s.isrSuspended = true) : tick s = .ok s := if_pos h

theorem stepEvent_tick_of_suspended {s : State} (h : s.isrSuspended = true) :
    stepEvent .tick s = .next s := by
  simp only [stepEvent, tickStep, tick_of_suspended h]

/-- An event that leaves a state as it is leaves it so however often it comes. -/
theorem runEvents_replicate_of_fixed {e : Event} {s : State} (h : stepEvent e s = .next s) (n : Nat) :
    runEvents (List.replicate n e) s = .next s := by
  induction n with
  | zero => rfl
  | succ n ih => simp only [List.replicate_succ, runEvents, h, ih]

/-- Settles O20: the model defines the accessors by what they read, so each clause is an evaluation. -/
theorem engineAccessorsReadTheirRegisters : Obligations.EngineAccessorsReadTheirRegisters :=
  ⟨fun _ _ => rfl, rfl, rfl, rfl, rfl⟩

/-- Settles O23: the operation is one `setAxis`, read at the same axis, at another axis, and outside
the axis file. -/
theorem setDeltaStepsWritesPositionOnly : Obligations.SetDeltaStepsWritesPositionOnly := by
  intro s a v
  refine ⟨?_, fun b hb => ?_, s.setDeltaSteps_frame a v⟩
  · rw [State.setDeltaSteps_eq, State.axis_setAxis_same]
  · rw [State.setDeltaSteps_eq, State.axis_setAxis_ne s _ hb]

/-- Settles O24: a suspended state is a fixed point of `tick`. -/
theorem suspendIsrHasNoDepth : Obligations.SuspendIsrHasNoDepth := by
  intro s b c
  have hfixed : stepEvent .tick (s.suspendIsr true) = .next (s.suspendIsr true) :=
    stepEvent_tick_of_suspended (s.suspendIsr_isrSuspended true)
  exact ⟨rfl, s.suspendIsr_suspendIsr b c, runEvents_replicate_of_fixed hfixed⟩

end Sys2Proof.Machine
end

section
/-! The round trip of `encode` and `decode`: byte order (R43), fields (R64, R65), the two tests of
`DECODE` (R73). -/

namespace Sys2Proof

/-! ## Byte order -/

/-- The two bytes of a half, joined again, are the half. -/
theorem half_join (v : Half) : v.extractLsb' 8 8 ++ v.extractLsb' 0 8 = v :=
  (BitVec.extractLsb'_append_extractLsb'_eq_extractLsb' (by decide)).trans BitVec.extractLsb'_eq_self

/-- The four bytes of a word, joined again, are the word. -/
theorem word_join (v : Word) :
    v.extractLsb' 24 8 ++ v.extractLsb' 16 8 ++ v.extractLsb' 8 8 ++ v.extractLsb' 0 8 = v := by
  rw [BitVec.extractLsb'_append_extractLsb'_eq_extractLsb' (by decide),
    BitVec.extractLsb'_append_extractLsb'_eq_extractLsb' (by decide),
    BitVec.extractLsb'_append_extractLsb'_eq_extractLsb' (by decide)]
  exact BitVec.extractLsb'_eq_self

/-- A half read from the payload has the bytes it was read from, the low one first. -/
@[simp] theorem halfBytes_payHalf (pay : List Byte) (off : Nat) :
    halfBytes (payHalf pay off) = [payByte pay off, payByte pay (off + 1)] := by
  rw [halfBytes, payHalf, BitVec.extractLsb'_append_eq_right, BitVec.extractLsb'_append_eq_left]

/-- A word read from the payload has the bytes it was read from, the lowest one first. -/
@[simp] theorem wordBytes_payWord (pay : List Byte) (off : Nat) :
    wordBytes (payWord pay off) =
      [payByte pay off, payByte pay (off + 1), payByte pay (off + 2), payByte pay (off + 3)] := by
  rw [wordBytes, payWord, BitVec.extractLsb'_append_eq_right,
    BitVec.extractLsb'_append_eq_of_le (start := 8) (by decide), BitVec.extractLsb'_append_eq_right,
    BitVec.extractLsb'_append_eq_of_le (start := 16) (by decide),
    BitVec.extractLsb'_append_eq_of_le (by decide), BitVec.extractLsb'_append_eq_right,
    BitVec.extractLsb'_append_eq_of_le (start := 24) (by decide),
    BitVec.extractLsb'_append_eq_of_le (by decide), BitVec.extractLsb'_append_eq_left]

/-- The bytes of a payload by offset are the payload. -/
theorem map_payByte_range (pay : List Byte) : (List.range pay.length).map (payByte pay) = pay := by
  refine List.ext_getElem (by simp) fun j _ hj => ?_
  simp [payByte, hj]

/-! ## Fields -/

/-- The fields read from an instruction's own payload are its fields. -/
theorem decodeFields_payload (i : Instr) : decodeFields i.opcode i.payload = i := by
  cases i with
  | setTargetFreq m f d => exact congrArg (Instr.setTargetFreq m · d) (half_join f)
  | setTargetDelta m f t => exact congrArg₂ (Instr.setTargetDelta m) (half_join f) (word_join t)
  | setIsrFreq f => exact congrArg Instr.setIsrFreq (half_join f)
  | setDeltaSteps m v => exact congrArg (Instr.setDeltaSteps m) (word_join v)
  | getDeltaSteps | getImuMeasurement | enableCnc | disableCnc | getIsrFreq => rfl

@[simp] theorem opcode_decodeFields (c : Opcode) (pay : List Byte) :
    (decodeFields c pay).opcode = c := by
  cases c <;> rfl

/-- The payload of the fields read is the first `SIZE(c)` bytes. -/
theorem payload_decodeFields (c : Opcode) (pay : List Byte) :
    (decodeFields c pay).payload = (List.range c.size).map (payByte pay) := by
  cases c with
  | setTargetFreq | setTargetDelta | setIsrFreq | setDeltaSteps =>
    simp [decodeFields, Instr.payload, Opcode.size, List.range_succ]
  | getDeltaSteps | getImuMeasurement | enableCnc | disableCnc | getIsrFreq => rfl

theorem payload_length (i : Instr) : i.payload.length = i.opcode.size := by
  cases i <;> rfl

/-! ## `DECODE` -/

/-- `DECODE` succeeds exactly on a known id with a payload of its command's size (R73). -/
theorem decode_eq_ok_iff {ids : CmdIds} {cmd : Command} {i : Instr} :
    decode ids cmd = .ok i ↔
      ∃ c, ids.find cmd.id = some c ∧ cmd.pay.length = c.size ∧ decodeFields c cmd.pay = i := by
  unfold decode
  cases ids.find cmd.id with
  | none => simp
  | some c => by_cases h : cmd.pay.length = c.size <;> simp [h]

/-- The command found for an id has that id. -/
theorem CmdIds.get_of_find {ids : CmdIds} {id : Byte} {c : Opcode} (h : ids.find id = some c) :
    ids.get c = id := by
  simpa using List.find?_some h

/-- Settles O14: the id names the command again, the payload has its size, and each field is read from
the bytes it was written to. -/
theorem decodeOfEncodeIsIdentity : Obligations.DecodeOfEncodeIsIdentity := by
  intro ids i hinj
  exact decode_eq_ok_iff.2
    ⟨i.opcode, Laws.CmdIds.find_get hinj i.opcode, payload_length i, decodeFields_payload i⟩

/-- Settles O15: the command found has the id, and a payload of its size is all read. -/
theorem encodeOfDecodeIsIdentity : Obligations.EncodeOfDecodeIsIdentity := by
  intro ids cmd i hdec
  obtain ⟨c, hfind, hlen, rfl⟩ := decode_eq_ok_iff.1 hdec
  have hpay : (decodeFields c cmd.pay).payload = cmd.pay := by
    rw [payload_decodeFields, ← hlen, map_payByte_range]
  rw [encode, opcode_decodeFields, CmdIds.get_of_find hfind, hpay]

/-- Settles O13: the eleven vectors are closed words, evaluated. -/
theorem specWordsDecode : Obligations.SpecWordsDecode := by
  unfold Obligations.SpecWordsDecode
  decide

end Sys2Proof
end

section
/-! `tick` in closed form (R100 to R105): what one tick does to one axis record is a function of the
record and the rate, and a tick of the block is that function on every axis. -/

namespace Sys2Proof.Machine

/-! ## One axis record -/

/-- The axis pulses at this tick: it is active and its counter reaches the threshold (R101). -/
def AxisState.fires (rate : Half) (x : AxisState) : Bool :=
  x.active && reached (x.tickCounter + 1#16) (threshold rate x.targetFreq)

/-- The axis after one tick that does not fault. -/
def AxisState.ticked (rate : Half) (x : AxisState) : AxisState :=
  if x.fires rate then x.stepped.settle
  else if x.active then { x with tickCounter := x.tickCounter + 1#16 } else x

/-- The fault this axis raises at a tick: the rate 0 (R102), or a pulse past an end of the range where
that is a fault (R104). -/
def AxisState.tickFault (ov : DeltaOverflow) (rate : Half) (x : AxisState) : Option Fault :=
  if x.targetFreq = 0#16 then some .divideByZero
  else if x.fires rate && (ov == .fault && atRangeEnd x.direction x.deltaSteps) then
    some .deltaOverflow
  else none

/-- The pulses the axis emits at one tick. -/
def AxisState.pulses (rate : Half) (a : Axis) (x : AxisState) : List Pulse :=
  if x.fires rate then [⟨a, x.direction⟩] else []

/-- The axis's direction line after one tick, `old` before it. -/
def AxisState.line (rate : Half) (old : Bool) (x : AxisState) : Bool :=
  if x.fires rate then x.direction else old

theorem AxisState.active_iff {x : AxisState} : x.active = true ↔ x.targetFreq ≠ inactiveFreq := by
  simp [AxisState.active]

theorem AxisState.active_of_fires {rate : Half} {x : AxisState} (h : x.fires rate = true) :
    x.active = true := (Bool.and_eq_true _ _ ▸ h).1

theorem AxisState.fires_of_inactive {x : AxisState} (h : x.targetFreq = inactiveFreq) (rate : Half) :
    x.fires rate = false := by simp [AxisState.fires, AxisState.active, h]

theorem AxisState.ticked_of_fires {rate : Half} {x : AxisState} (h : x.fires rate = true) :
    x.ticked rate = x.stepped.settle := if_pos h

theorem AxisState.ticked_of_counts {rate : Half} {x : AxisState} (hf : x.fires rate = false)
    (ha : x.active = true) : x.ticked rate = { x with tickCounter := x.tickCounter + 1#16 } := by
  simp [AxisState.ticked, hf, ha]

@[simp] theorem AxisState.ticked_of_inactive {x : AxisState} (h : x.targetFreq = inactiveFreq)
    (rate : Half) : x.ticked rate = x := by
  simp [AxisState.ticked, AxisState.fires, AxisState.active, h]

@[simp] theorem AxisState.tickFault_of_inactive {x : AxisState} (h : x.targetFreq = inactiveFreq)
    (ov : DeltaOverflow) (rate : Half) : x.tickFault ov rate = none := by
  rw [AxisState.tickFault, x.fires_of_inactive h, h]; rfl

theorem AxisState.tickFault_of_zero {x : AxisState} (h : x.targetFreq = 0#16) (ov : DeltaOverflow)
    (rate : Half) : x.tickFault ov rate = some .divideByZero := if_pos h

/-- A tick of an axis has a value: the rate is not 0, and a pulse overflows at no end of the range
where that is a fault. -/
theorem AxisState.tickFault_eq_none_iff {ov : DeltaOverflow} {rate : Half} {x : AxisState} :
    x.tickFault ov rate = none ↔
      x.targetFreq ≠ 0#16 ∧ (x.fires rate = true → ov = .wrap ∨
        atRangeEnd x.direction x.deltaSteps = false) := by
  by_cases h0 : x.targetFreq = 0#16
  · simp [AxisState.tickFault, h0]
  · cases ov <;> simp [AxisState.tickFault, h0]

/-- Where positions wrap, the rate 0 is the only fault. -/
theorem AxisState.tickFault_wrap {rate : Half} {x : AxisState} :
    x.tickFault .wrap rate = if x.targetFreq = 0#16 then some .divideByZero else none := by
  simp [AxisState.tickFault]

/-- `divideByZero` comes from the rate 0 and nothing else (R102). -/
theorem AxisState.zero_of_tickFault {ov : DeltaOverflow} {rate : Half} {x : AxisState}
    (h : x.tickFault ov rate = some .divideByZero) : x.targetFreq = 0#16 := by
  by_contra h0
  simp only [AxisState.tickFault, if_neg h0] at h
  split at h <;> simp at h

/-- Arrival changes the mode and the rate only (R105). -/
theorem AxisState.settle_frame (x : AxisState) :
    x.settle = { x with controlMode := x.settle.controlMode, targetFreq := x.settle.targetFreq } := by
  unfold AxisState.settle; split <;> rfl

theorem AxisState.settle_targetFreq (x : AxisState) :
    x.settle.targetFreq = x.targetFreq ∨ x.settle.targetFreq = inactiveFreq := by
  unfold AxisState.settle; split
  · exact .inr rfl
  · exact .inl rfl

/-- A tick writes no direction and no target (R148). -/
theorem AxisState.ticked_keeps (rate : Half) (x : AxisState) :
    (x.ticked rate).direction = x.direction ∧ (x.ticked rate).targetDelta = x.targetDelta := by
  unfold AxisState.ticked
  split
  · rw [AxisState.settle_frame]; exact ⟨rfl, rfl⟩
  · split <;> exact ⟨rfl, rfl⟩

/-- The position moves with a pulse, one step, and not otherwise (R104). -/
theorem AxisState.ticked_deltaSteps (rate : Half) (x : AxisState) :
    (x.ticked rate).deltaSteps =
      if x.fires rate then stepDelta x.direction x.deltaSteps else x.deltaSteps := by
  unfold AxisState.ticked
  split
  · rw [AxisState.settle_frame]; rfl
  · split <;> rfl

/-- A tick keeps the rate of an axis or makes it inactive (R105). -/
theorem AxisState.ticked_targetFreq (rate : Half) (x : AxisState) :
    (x.ticked rate).targetFreq = x.targetFreq ∨ (x.ticked rate).targetFreq = inactiveFreq := by
  unfold AxisState.ticked
  split
  · exact AxisState.settle_targetFreq x.stepped
  · split <;> exact .inl rfl

/-! ## One axis of the block -/

/-- The fault `axis_tick(a)` raises. -/
def State.axisFault (s : State) (a : Axis) : Option Fault :=
  (s.axis a).tickFault s.params.deltaOverflow s.tickRate

/-- The block after `axis_tick(a)`. -/
def State.tickAxis (s : State) (a : Axis) : State :=
  { s with axes := s.axes.set a ((s.axis a).ticked s.tickRate)
           dirOut := s.dirOut.set a ((s.axis a).line s.tickRate (s.dirOut.get a))
           trace := s.trace ++ (s.axis a).pulses s.tickRate a }

@[simp] theorem PerAxis.set_get_same {α : Type} (v : PerAxis α) (a : Axis) :
    v.set a (v.get a) = v := by cases a <;> rfl

@[simp] theorem State.setAxis_axis (s : State) (a : Axis) : s.setAxis a (s.axis a) = s := by
  cases a <;> rfl

theorem State.tickAxis_of_fires {s : State} {a : Axis} (h : (s.axis a).fires s.tickRate = true) :
    s.tickAxis a = (s.emitPulse a (s.axis a).direction).setAxis a (s.axis a).stepped.settle := by
  simp [State.tickAxis, AxisState.ticked, AxisState.line, AxisState.pulses, h, State.setAxis,
    State.emitPulse]

theorem State.tickAxis_of_not_fires {s : State} {a : Axis}
    (h : (s.axis a).fires s.tickRate = false) :
    s.tickAxis a = s.setAxis a ((s.axis a).ticked s.tickRate) := by
  simp [State.tickAxis, AxisState.line, AxisState.pulses, h, State.setAxis]

/-- `axis_tick` (R101 to R105), exactly. -/
theorem axisTick_eq (a : Axis) (s : State) :
    axisTick a s = (s.axisFault a).elim (.ok (s.tickAxis a)) .error := by
  unfold axisTick State.axisFault
  by_cases hi : (s.axis a).targetFreq = inactiveFreq
  · have hf := (s.axis a).fires_of_inactive hi s.tickRate
    simp [hi, State.tickAxis_of_not_fires hf]
  · by_cases h0 : (s.axis a).targetFreq = 0#16
    · simp [h0, AxisState.tickFault_of_zero, inactiveFreq]
    · have ha : (s.axis a).active = true := AxisState.active_iff.2 hi
      have hfires : (s.axis a).fires s.tickRate =
          reached ((s.axis a).tickCounter + 1#16) (threshold s.tickRate (s.axis a).targetFreq) := by
        rw [AxisState.fires, ha, Bool.true_and]
      cases hf : (s.axis a).fires s.tickRate
      · simp [hi, h0, AxisState.tickFault, hf, ← hfires, State.tickAxis_of_not_fires,
          AxisState.ticked_of_counts hf ha]
      · have hov (b : Bool) : (if b then Except.error .deltaOverflow else .ok (s.tickAxis a)) =
            (if b then some Fault.deltaOverflow else none).elim (.ok (s.tickAxis a)) .error := by
          cases b <;> rfl
        simpa [hi, h0, AxisState.tickFault, hf, ← hfires, pulse, ← State.tickAxis_of_fires hf]
          using hov (s.params.deltaOverflow == .fault &&
            atRangeEnd (s.axis a).direction (s.axis a).deltaSteps)

theorem axisTick_eq_ok_iff {a : Axis} {s t : State} :
    axisTick a s = .ok t ↔ s.axisFault a = none ∧ t = s.tickAxis a := by
  rw [axisTick_eq]
  cases s.axisFault a <;> simp [eq_comm]

/-- The axis record after `axis_tick` of that axis. -/
@[simp] theorem State.axis_tickAxis_same (s : State) (a : Axis) :
    (s.tickAxis a).axis a = (s.axis a).ticked s.tickRate := PerAxis.get_set_same ..

/-- Another axis's record after `axis_tick` (R100). -/
theorem State.axis_tickAxis_ne (s : State) {a b : Axis} (h : b ≠ a) :
    (s.tickAxis a).axis b = s.axis b := PerAxis.get_set_ne _ _ h

theorem State.axisFault_tickAxis_ne (s : State) {a b : Axis} (h : b ≠ a) :
    (s.tickAxis a).axisFault b = s.axisFault b := by
  rw [State.axisFault, s.axis_tickAxis_ne h]; rfl

/-! ## The whole tick -/

/-- The fault `tick()` raises while not suspended: that of the first axis that has one (R100). -/
def State.tickFault (s : State) : Option Fault := Axis.all.findSome? s.axisFault

/-- The block after an unsuspended tick. -/
def State.ticked (s : State) : State :=
  { s with axes := .ofFn fun a => (s.axis a).ticked s.tickRate
           dirOut := .ofFn fun a => (s.axis a).line s.tickRate (s.dirOut.get a)
           trace := s.trace ++ Axis.all.flatMap fun a => (s.axis a).pulses s.tickRate a }

/-- The axes of a list are served one after another, none twice, so each meets its own record as it was
before the tick. -/
theorem tickAxes_eq {l : List Axis} (hl : l.Nodup) {fault : Axis → Option Fault} {s : State}
    (hfault : ∀ a ∈ l, s.axisFault a = fault a) :
    tickAxes l s = (l.findSome? fault).elim (.ok (l.foldl State.tickAxis s)) .error := by
  induction l generalizing s with
  | nil => rfl
  | cons a l ih =>
    obtain ⟨ha, hl⟩ := List.nodup_cons.1 hl
    rw [tickAxes, axisTick_eq, List.findSome?_cons, List.foldl_cons, hfault a List.mem_cons_self]
    cases fault a with
    | some f => rfl
    | none =>
      refine ih hl fun b hb => ?_
      have hba : b ≠ a := fun h => ha (h ▸ hb)
      rw [s.axisFault_tickAxis_ne hba]
      exact hfault b (List.mem_cons_of_mem a hb)

theorem foldl_tickAxis_all (s : State) : Axis.all.foldl State.tickAxis s = s.ticked := by
  simp [Axis.all, State.tickAxis, State.ticked, State.axis, PerAxis.ofFn, PerAxis.set, PerAxis.get]

/-- `tick()` (R100), exactly, while not suspended. -/
theorem tick_eq {s : State} (hs : s.isrSuspended = false) :
    tick s = s.tickFault.elim (.ok s.ticked) .error := by
  rw [tick, hs, if_neg Bool.false_ne_true, tickAxes_eq (by decide) fun _ _ => rfl,
    foldl_tickAxis_all, State.tickFault]

/-- No axis faults exactly where the tick has a value. -/
theorem State.tickFault_eq_none_iff {s : State} : s.tickFault = none ↔ ∀ a, s.axisFault a = none := by
  simp [State.tickFault, List.findSome?_eq_none_iff]

/-- What a tick answers (R100). -/
theorem tick_eq_ok_iff {s t : State} :
    tick s = .ok t ↔
      (s.isrSuspended = true ∧ t = s) ∨
      (s.isrSuspended = false ∧ (∀ a, s.axisFault a = none) ∧ t = s.ticked) := by
  cases hs : s.isrSuspended
  · rw [tick_eq hs, ← State.tickFault_eq_none_iff]
    cases s.tickFault <;> simp [eq_comm]
  · simp [tick_of_suspended hs, eq_comm]

theorem stepEvent_tick_eq_next_iff {s t : State} : stepEvent .tick s = .next t ↔ tick s = .ok t := by
  simp only [stepEvent, tickStep]
  cases tick s <;> simp

theorem stepEvent_tick_eq_fault_iff {s : State} {f : Fault} :
    stepEvent .tick s = .fault f ↔ tick s = .error f := by
  simp only [stepEvent, tickStep]
  cases tick s <;> simp

/-- An unsuspended tick in which no axis faults. -/
theorem stepEvent_tick_of_noFault {s : State} (hs : s.isrSuspended = false)
    (hf : ∀ a, s.axisFault a = none) : stepEvent .tick s = .next s.ticked :=
  stepEvent_tick_eq_next_iff.2 (tick_eq_ok_iff.2 (.inr ⟨hs, hf, rfl⟩))

/-- A fault of a tick is the fault of one of its axes. -/
theorem exists_axisFault_of_tick_error {s : State} {f : Fault} (h : tick s = .error f) :
    ∃ a, s.axisFault a = some f := by
  cases hs : s.isrSuspended
  · rw [tick_eq hs] at h
    cases hf : s.tickFault with
    | none => rw [hf] at h; cases h
    | some g =>
      rw [hf] at h
      obtain ⟨a, -, ha⟩ := List.exists_of_findSome?_eq_some hf
      exact ⟨a, ha.trans (congrArg some (Except.error.inj h))⟩
  · rw [tick_of_suspended hs] at h; cases h

@[simp] theorem State.axis_ticked (s : State) (a : Axis) :
    s.ticked.axis a = (s.axis a).ticked s.tickRate := PerAxis.get_ofFn ..

/-- The pulses of one axis among those of a tick. -/
theorem pulsesOf_ticked (s : State) (a : Axis) :
    pulsesOf a s.ticked.trace = pulsesOf a s.trace ++ (s.axis a).pulses s.tickRate a := by
  have hself (b : Axis) : pulsesOf a ((s.axis b).pulses s.tickRate b) =
      if b = a then (s.axis b).pulses s.tickRate b else [] := by
    unfold AxisState.pulses pulsesOf
    split <;> by_cases hb : b = a <;> simp [hb]
  have happ (l m : List Pulse) : pulsesOf a (l ++ m) = pulsesOf a l ++ pulsesOf a m :=
    List.filter_append ..
  simp only [State.ticked, Axis.all, List.flatMap_cons, List.flatMap_nil, happ, hself]
  cases a <;> simp [pulsesOf]

/-- A block with no active axis is left as it is by every tick. -/
theorem stepEvent_tick_of_inactive {s : State} (h : ∀ a, (s.axis a).targetFreq = inactiveFreq) :
    stepEvent .tick s = .next s := by
  have hax (a : Axis) : axisTick a s = .ok s := by rw [axisTick]; exact if_pos (h a)
  have htick : tick s = .ok s := by
    unfold tick
    split
    · rfl
    · simp [Axis.all, tickAxes, hax]
  exact stepEvent_tick_eq_next_iff.2 htick

end Sys2Proof.Machine
end

section
/-! One tick (R100 to R105): counting, pulses, arrival, the ends of the range, the order of the axes. -/

namespace Sys2Proof.Machine

/-! ## The position (R104) -/

theorem stepDelta_eq_add (d : Bool) (p : Word) :
    stepDelta d p = p + (if d then 1#32 else -1#32) := by
  cases d
  · exact BitVec.sub_eq_add_neg p 1#32
  · rfl

/-- A step is one in the integers, modulo the width. -/
theorem toInt_stepDelta (d : Bool) (p : Word) :
    (stepDelta d p).toInt = (p.toInt + (if d then 1 else -1)).bmod (2 ^ 32) := by
  rw [stepDelta_eq_add, BitVec.toInt_add]
  cases d <;> rfl

/-- A step that stays in the `int32` range is one in the integers. -/
theorem toInt_stepDelta_of_inRange {d : Bool} {p : Word}
    (hlo : -2147483648 ≤ p.toInt + (if d then 1 else -1))
    (hhi : p.toInt + (if d then 1 else -1) ≤ 2147483647) :
    (stepDelta d p).toInt = p.toInt + (if d then 1 else -1) := by
  rw [toInt_stepDelta]
  exact Int.bmod_eq_of_le (by omega) (by omega)

/-- The end of the range is where one step leaves it. -/
theorem atRangeEnd_iff {d : Bool} {p : Word} :
    atRangeEnd d p = true ↔
      p.toInt + (if d then 1 else -1) < -2147483648 ∨
        2147483647 < p.toInt + (if d then 1 else -1) := by
  have hlo := BitVec.le_toInt p
  have hhi := BitVec.toInt_lt (x := p)
  have hmax : (2147483647#32 : Word).toInt = 2147483647 := by decide
  have hmin : (2147483648#32 : Word).toInt = -2147483648 := by decide
  cases d
  · simp only [atRangeEnd, Bool.false_eq_true, if_false, beq_iff_eq, ← BitVec.toInt_inj, hmin]
    omega
  · simp only [atRangeEnd, if_true, beq_iff_eq, ← BitVec.toInt_inj, hmax]
    omega

/-! ## One axis record -/

/-- An active axis pulses when its counter, one on, reaches the quotient of the rates (R101, R102). -/
theorem AxisState.fires_iff {rate : Half} {x : AxisState} (ha : x.targetFreq ≠ 65535#16)
    (hc : x.tickCounter.toNat ≤ 65534) :
    x.fires rate = true ↔ rate.toNat / x.targetFreq.toNat ≤ x.tickCounter.toNat + 1 := by
  rw [AxisState.fires, AxisState.active_iff.2 ha, Bool.true_and]
  exact reached_iff hc

/-- The pulse that reaches the target in `DeltaControl` stops the axis (R105). -/
theorem AxisState.ticked_of_arrives {rate : Half} {x : AxisState} (hf : x.fires rate = true)
    (hm : x.controlMode = .deltaControl)
    (hp : stepDelta x.direction x.deltaSteps = x.targetDelta) :
    x.ticked rate = { x with tickCounter := 0#16, deltaSteps := x.targetDelta,
                             controlMode := .frequencyControl, targetFreq := 65535#16 } := by
  rw [AxisState.ticked_of_fires hf, AxisState.settle_stepped, if_pos ⟨hm, hp⟩, hp]
  rfl

/-- Every other pulse moves the position and restarts the counter (R101, R104). -/
theorem AxisState.ticked_of_passes {rate : Half} {x : AxisState} (hf : x.fires rate = true)
    (hp : ¬ (x.controlMode = .deltaControl ∧
      stepDelta x.direction x.deltaSteps = x.targetDelta)) :
    x.ticked rate = { x with tickCounter := 0#16,
                             deltaSteps := stepDelta x.direction x.deltaSteps } := by
  rw [AxisState.ticked_of_fires hf, AxisState.settle_stepped, if_neg hp]
  rfl

/-- A pulse restarts the counter whether the axis arrives or not (R101). -/
theorem AxisState.ticked_tickCounter_of_fires {rate : Half} {x : AxisState}
    (hf : x.fires rate = true) : (x.ticked rate).tickCounter = 0#16 := by
  rw [AxisState.ticked_of_fires hf, AxisState.settle_frame]
  rfl

/-! ## `axis_tick` -/

theorem axisTick_of_inactive {s : State} {a : Axis} (h : (s.axis a).targetFreq = 65535#16) :
    axisTick a s = .ok s := if_pos h

theorem axisTick_of_zero {s : State} {a : Axis} (h : (s.axis a).targetFreq = 0#16) :
    axisTick a s = .error .divideByZero := by
  rw [axisTick_eq, State.axisFault, AxisState.tickFault_of_zero h]
  rfl

/-- An `axis_tick` that lengthened the trace pulsed. -/
theorem fires_of_trace_ne {s t : State} {a : Axis} (h : axisTick a s = .ok t)
    (ht : t.trace ≠ s.trace) : (s.axis a).fires s.tickRate = true := by
  obtain ⟨-, rfl⟩ := axisTick_eq_ok_iff.1 h
  by_contra hf
  exact ht (by simp [State.tickAxis, AxisState.pulses, hf])

/-- An axis with the rate neither 0 nor 65535 has no fault where positions wrap. -/
theorem State.axisFault_wrap {s : State} {a : Axis} (hov : s.params.deltaOverflow = .wrap)
    (h0 : (s.axis a).targetFreq ≠ 0#16) : s.axisFault a = none :=
  AxisState.tickFault_eq_none_iff.2 ⟨h0, fun _ => .inl hov⟩

/-- Settles O39. -/
theorem suspendedTickChangesNothing : Obligations.SuspendedTickChangesNothing :=
  fun _ h => stepEvent_tick_of_suspended h

/-- Settles O40: below the threshold the axis does not fire and counts, from it on it fires. -/
theorem axisTickCountsThenPulses : Obligations.AxisTickCountsThenPulses := by
  intro s a
  refine ⟨axisTick_of_inactive, axisTick_of_zero, fun ha h0 hc => ⟨fun hlt => ?_, fun hle hov => ?_⟩⟩
  · have hf : (s.axis a).fires s.tickRate = false :=
      Bool.eq_false_iff.2 fun h => absurd ((AxisState.fires_iff ha hc).1 h) (by omega)
    have hfault : s.axisFault a = none :=
      AxisState.tickFault_eq_none_iff.2 ⟨h0, fun h => by rw [hf] at h; cases h⟩
    rw [axisTick_eq, hfault, Option.elim_none, State.tickAxis_of_not_fires hf,
      AxisState.ticked_of_counts hf (AxisState.active_iff.2 ha)]
  · have hf : (s.axis a).fires s.tickRate = true := (AxisState.fires_iff ha hc).2 hle
    refine ⟨s.tickAxis a, axisTick_eq_ok_iff.2 ⟨State.axisFault_wrap hov h0, rfl⟩, ?_, ?_⟩
    · rw [State.tickAxis_of_fires hf, State.axis_setAxis_same]
      rfl
    · rintro p rfl
      rw [State.axis_tickAxis_same, AxisState.ticked_of_fires hf, AxisState.settle_stepped]
      rfl

/-- Settles O41: the trace grew, so the axis fired; arrival decides between the two records. -/
theorem arrivalStopsTheAxisInTheSameTick : Obligations.ArrivalStopsTheAxisInTheSameTick := by
  intro s t a h htr
  have hf := fires_of_trace_ne h htr
  obtain ⟨-, rfl⟩ := axisTick_eq_ok_iff.1 h
  obtain ⟨hdir, htarget⟩ := (s.axis a).ticked_keeps s.tickRate
  have hpos : ((s.axis a).ticked s.tickRate).deltaSteps =
      stepDelta (s.axis a).direction (s.axis a).deltaSteps := by
    rw [AxisState.ticked_deltaSteps, if_pos hf]
  have hline : (s.tickAxis a).dirOut.get a = (s.axis a).direction := by
    simp [State.tickAxis, AxisState.line, hf]
  simp only [State.axis_tickAxis_same, hpos]
  refine ⟨stepDelta_eq_add _ _, AxisState.ticked_tickCounter_of_fires hf, hdir, htarget, hline,
    fun hm hp => ?_, fun hp => ?_⟩
  · have hrec := AxisState.ticked_of_arrives hf hm hp
    refine ⟨by rw [hrec], by rw [hrec], axisTick_of_inactive ?_⟩
    rw [State.axis_tickAxis_same, hrec]
  · rw [AxisState.ticked_of_passes hf hp]
    exact ⟨rfl, rfl⟩

/-- Settles O42: the axis fires, and its step leaves the range exactly at an end of it. -/
theorem positionStepsByOneOrOverflows : Obligations.PositionStepsByOneOrOverflows := by
  intro s a ha h0 hc hle q hq
  have hf : (s.axis a).fires s.tickRate = true := (AxisState.fires_iff ha hc).2 hle
  have hnext (hfault : s.axisFault a = none) : ∃ t, axisTick a s = .ok t ∧
      (t.axis a).deltaSteps.toInt = q.bmod (2 ^ 32) :=
    ⟨s.tickAxis a, axisTick_eq_ok_iff.2 ⟨hfault, rfl⟩, by
      rw [State.axis_tickAxis_same, AxisState.ticked_deltaSteps, if_pos hf, toInt_stepDelta, hq]⟩
  have hend : atRangeEnd (s.axis a).direction (s.axis a).deltaSteps = true ↔
      q < -2147483648 ∨ 2147483647 < q := hq ▸ atRangeEnd_iff
  refine ⟨fun hlo hhi => ?_, fun hq hov => ?_, fun hq hov => ?_, fun hout hov => ?_⟩
  · have hin : atRangeEnd (s.axis a).direction (s.axis a).deltaSteps = false :=
      Bool.eq_false_iff.2 fun h => by have := hend.1 h; omega
    have := hnext (AxisState.tickFault_eq_none_iff.2 ⟨h0, fun _ => .inr hin⟩)
    rwa [Int.bmod_eq_of_le (by omega) (by omega)] at this
  · simpa [hq] using hnext (State.axisFault_wrap hov h0)
  · simpa [hq] using hnext (State.axisFault_wrap hov h0)
  · have hfault : s.axisFault a = some .deltaOverflow := by
      simp [State.axisFault, AxisState.tickFault, h0, hf, hov, hend.2 hout]
    rw [axisTick_eq, hfault]
    rfl

/-- Settles O48: the step goes away from the target, so it does not meet it. -/
theorem staleDirectionMovesAway : Obligations.StaleDirectionMovesAway := by
  intro s t a h htr _
  have hf := fires_of_trace_ne h htr
  obtain ⟨-, rfl⟩ := axisTick_eq_ok_iff.1 h
  have hpasses (hne : (stepDelta (s.axis a).direction (s.axis a).deltaSteps).toInt ≠
      (s.axis a).targetDelta.toInt) :
      (s.tickAxis a).axis a = { s.axis a with
        tickCounter := 0#16
        deltaSteps := stepDelta (s.axis a).direction (s.axis a).deltaSteps } := by
    rw [State.axis_tickAxis_same]
    exact AxisState.ticked_of_passes hf fun ⟨_, hp⟩ => hne (congrArg _ hp)
  have hlo := BitVec.le_toInt (s.axis a).deltaSteps
  have hhi := BitVec.toInt_lt (x := (s.axis a).deltaSteps)
  constructor
  all_goals
    intro hd hbeyond hend
    have hstep := toInt_stepDelta_of_inRange (d := (s.axis a).direction)
      (p := (s.axis a).deltaSteps) (by rw [hd]; simp; omega) (by rw [hd]; simp; omega)
    rw [hd] at hstep
    simp only [if_true, Bool.false_eq_true, if_false] at hstep
    rw [hpasses (by rw [hd, hstep]; omega)]
    exact ⟨by simp only [hd, hstep]; omega, ‹_›, rfl⟩

/-- Settles O25: with the rate 0 the threshold is 0, which every counter reaches. -/
theorem tickRateIsStoredAsGiven : Obligations.TickRateIsStoredAsGiven := by
  refine ⟨fun _ _ => ⟨rfl, rfl⟩, fun s a ha h0 hov => ?_⟩
  have hf : (s.axis a).fires 0#16 = true := by
    simp [AxisState.fires, AxisState.active_iff.2 ha, reached, threshold, BitVec.ule]
  refine ⟨(s.setTickRate 0#16).tickAxis a,
    axisTick_eq_ok_iff.2 ⟨State.axisFault_wrap hov h0, rfl⟩, ?_⟩
  simp [State.tickAxis, AxisState.pulses, hf]

/-! ## The whole tick -/

/-- Settles O43: some axis faults, and where positions wrap every fault is the division by zero. -/
theorem zeroRateFaultsAtUnsuspendedTick : Obligations.ZeroRateFaultsAtUnsuspendedTick := by
  intro s a hs hov h0
  rw [stepEvent_tick_eq_fault_iff]
  cases htick : tick s with
  | ok t =>
    obtain ⟨hsus, -⟩ | ⟨-, hnone, -⟩ := tick_eq_ok_iff.1 htick
    · rw [hs] at hsus; cases hsus
    · have hfault := hnone a
      rw [State.axisFault, AxisState.tickFault_of_zero h0] at hfault
      cases hfault
  | error f =>
    obtain ⟨b, hb⟩ := exists_axisFault_of_tick_error htick
    rw [State.axisFault, hov, AxisState.tickFault_wrap] at hb
    split at hb
    · rw [Option.some.inj hb]
    · cases hb

/-- Settles O44: `State.ticked` names the three fields, and `AxisState.ticked` keeps direction and
target. -/
theorem tickWritesOnlyAxesAndOutputs : Obligations.TickWritesOnlyAxesAndOutputs := by
  intro s t h
  obtain ⟨-, rfl⟩ | ⟨-, -, rfl⟩ := tick_eq_ok_iff.1 (stepEvent_tick_eq_next_iff.1 h)
  · exact ⟨rfl, fun _ => ⟨rfl, rfl⟩⟩
  · refine ⟨rfl, fun a => ?_⟩
    rw [State.axis_ticked]
    exact (s.axis a).ticked_keeps s.tickRate

/-- Settles O45: no axis faults, and `State.ticked` is put together from the three `State.tickAxis`. -/
theorem tickServesAxesIndependently : Obligations.TickServesAxesIndependently := by
  intro s t hs h
  obtain ⟨hsus, -⟩ | ⟨-, hnone, rfl⟩ := tick_eq_ok_iff.1 h
  · rw [hs] at hsus; cases hsus
  · have hax (a : Axis) : axisTick a s = .ok (s.tickAxis a) := axisTick_eq_ok_iff.2 ⟨hnone a, rfl⟩
    refine ⟨_, _, _, (s.axis .x).pulses s.tickRate .x, (s.axis .y).pulses s.tickRate .y,
      (s.axis .z).pulses s.tickRate .z, hax .x, hax .y, hax .z, rfl, rfl, rfl, rfl, rfl, ?_⟩
    simp [State.ticked, Axis.all]

/-- A tick's pulses of one axis, its position and its direction line agree (R103, R104). -/
theorem AxisState.pulse_agrees (rate : Half) (a : Axis) (old : Bool) (x : AxisState) :
    (x.pulses rate a = [] ∧ (x.ticked rate).deltaSteps = x.deltaSteps ∧ x.line rate old = old) ∨
    (x.pulses rate a = [⟨a, x.direction⟩] ∧
      (x.ticked rate).deltaSteps = x.deltaSteps + (if x.direction then 1#32 else -1#32) ∧
      x.line rate old = x.direction) := by
  rw [AxisState.ticked_deltaSteps, ← stepDelta_eq_add]
  cases hf : x.fires rate
  · exact .inl (by simp [AxisState.pulses, AxisState.line, hf])
  · exact .inr (by simp [AxisState.pulses, AxisState.line, hf])

theorem AxisState.length_pulses_le (rate : Half) (a : Axis) (x : AxisState) :
    (x.pulses rate a).length ≤ 1 := by
  unfold AxisState.pulses; split <;> simp

/-- Settles O46: the pulses of a tick are those of its three axes, and each axis's own agree with its
record and its line. -/
theorem everyPulseIsCountedOnce : Obligations.EveryPulseIsCountedOnce := by
  intro s t h
  obtain ⟨-, rfl⟩ | ⟨-, -, rfl⟩ := tick_eq_ok_iff.1 (stepEvent_tick_eq_next_iff.1 h)
  · exact ⟨[], by simp, by simp, fun a => .inl ⟨rfl, rfl, rfl⟩⟩
  · refine ⟨_, rfl, ?_, fun a => ?_⟩
    · have hx := (s.axis .x).length_pulses_le s.tickRate .x
      have hy := (s.axis .y).length_pulses_le s.tickRate .y
      have hz := (s.axis .z).length_pulses_le s.tickRate .z
      simp only [Axis.all, List.flatMap_cons, List.flatMap_nil, List.length_append, List.length_nil]
      omega
    · have hps := pulsesOf_ticked s a
      simp only [State.ticked, pulsesOf, List.filter_append, List.append_cancel_left_eq] at hps
      have hline : s.ticked.dirOut.get a = (s.axis a).line s.tickRate (s.dirOut.get a) :=
        PerAxis.get_ofFn ..
      rw [pulsesOf, hps, State.axis_ticked, hline]
      exact (s.axis a).pulse_agrees s.tickRate a (s.dirOut.get a)

end Sys2Proof.Machine
end

section
/-! Any number of ticks (R107, R108): a run of one axis record, coasting between two arrivals, and the
block that carries it. -/

namespace Sys2Proof.Machine

/-! ## Runs of one axis record -/

/-- `n` ticks without a fault lead the record of axis `a` from `x` to `y` and emit `ps`. -/
inductive AxisRun (ov : DeltaOverflow) (rate : Half) (a : Axis) (x : AxisState) :
    Nat → AxisState → List Pulse → Prop where
  | start : AxisRun ov rate a x 0 x []
  | tick {n : Nat} {y : AxisState} {ps : List Pulse} : AxisRun ov rate a x n y ps →
      y.tickFault ov rate = none →
      AxisRun ov rate a x (n + 1) (y.ticked rate) (ps ++ y.pulses rate a)

/-- An inactive axis stays as it is for any number of further ticks (R101). -/
theorem AxisRun.rest {ov : DeltaOverflow} {rate : Half} {a : Axis} {x y : AxisState} {n : Nat}
    {ps : List Pulse} (h : AxisRun ov rate a x n y ps) (hy : y.targetFreq = 65535#16) (extra : Nat) :
    AxisRun ov rate a x (n + extra) y ps := by
  induction extra with
  | zero => exact h
  | succ extra ih =>
    have hf : y.fires rate = false := y.fires_of_inactive hy rate
    simpa [AxisState.ticked_of_inactive hy, AxisState.pulses, hf, ← Nat.add_assoc] using
      ih.tick (AxisState.tickFault_of_inactive hy ov rate)

/-! ## The block that carries a run -/

/-- Nothing but axis `a` can make a tick fault: it is not suspended, no other axis has the rate 0, and
none overflows where that is a fault. -/
structure State.OthersSafe (s : State) (a : Axis) : Prop where
  unsuspended : s.isrSuspended = false
  nonzero : ∀ b, b ≠ a → (s.axis b).targetFreq ≠ 0#16
  noOverflow : s.params.deltaOverflow = .wrap ∨ ∀ b, b ≠ a → (s.axis b).targetFreq = 65535#16

theorem State.OthersSafe.noFault {s : State} {a : Axis} (h : s.OthersSafe a)
    (ha : s.axisFault a = none) (b : Axis) : s.axisFault b = none := by
  by_cases hb : b = a
  · exact hb ▸ ha
  · obtain hov | hin := h.noOverflow
    · exact State.axisFault_wrap hov (h.nonzero b hb)
    · exact AxisState.tickFault_of_inactive (hin b hb) ..

theorem State.OthersSafe.ticked {s : State} {a : Axis} (h : s.OthersSafe a) :
    s.ticked.OthersSafe a where
  unsuspended := h.unsuspended
  nonzero b hb := by
    rw [State.axis_ticked]
    obtain hkeep | hstop := (s.axis b).ticked_targetFreq s.tickRate
    · rw [hkeep]; exact h.nonzero b hb
    · rw [hstop]; decide
  noOverflow := h.noOverflow.imp id fun hin b hb => by
    rw [State.axis_ticked, AxisState.ticked_of_inactive (hin b hb)]; exact hin b hb

/-- A run of axis `a` is a run of the block's ticks wherever the other axes are safe. -/
theorem runTicks_of_axisRun {s : State} {a : Axis} (hs : s.OthersSafe a) {n : Nat} {y : AxisState}
    {ps : List Pulse} (h : AxisRun s.params.deltaOverflow s.tickRate a (s.axis a) n y ps) :
    ∃ t, runEvents (List.replicate n .tick) s = .next t ∧ t.axis a = y ∧
      pulsesOf a t.trace = pulsesOf a s.trace ++ ps ∧
      t.OthersSafe a ∧ t.params = s.params ∧ t.tickRate = s.tickRate := by
  induction h with
  | start => exact ⟨s, rfl, rfl, (List.append_nil _).symm, hs, rfl, rfl⟩
  | tick _ hfault ih =>
    obtain ⟨t, hrun, rfl, hpulses, ht, hp, hr⟩ := ih
    have hnone : t.axisFault a = none := by rw [State.axisFault, hp, hr]; exact hfault
    have hstep : stepEvent .tick t = .next t.ticked :=
      stepEvent_tick_of_noFault ht.unsuspended (ht.noFault hnone)
    refine ⟨t.ticked, ?_, by rw [State.axis_ticked, hr], ?_, ht.ticked, hp, hr⟩
    · rw [List.replicate_succ', runEvents_append hrun, runEvents, hstep]; rfl
    · rw [pulsesOf_ticked, hpulses, hr, List.append_assoc]

/-! ## Coasting: pulses at every period, no arrival -/

/-- The position after `j` pulses. -/
def AxisState.posAfter (x : AxisState) (j : Nat) : Word := (stepDelta x.direction)^[j] x.deltaSteps

theorem AxisState.posAfter_succ (x : AxisState) (j : Nat) :
    x.posAfter (j + 1) = stepDelta x.direction (x.posAfter j) := Function.iterate_succ_apply' ..

/-- An active axis with its counter 0 that can make `k` pulses: none overflows where that is a fault,
and none of them arrives. -/
structure AxisState.Coasts (ov : DeltaOverflow) (k : Nat) (x : AxisState) : Prop where
  nonzero : x.targetFreq ≠ 0#16
  active : x.targetFreq ≠ 65535#16
  fresh : x.tickCounter = 0#16
  clear : ov = .wrap ∨ ∀ j < k, atRangeEnd x.direction (x.posAfter j) = false
  misses : x.controlMode = .deltaControl → ∀ j, 1 ≤ j → j ≤ k → x.posAfter j ≠ x.targetDelta

/-- The record `n` ticks on, with a pulse at every `p`th tick. -/
def AxisState.coasted (x : AxisState) (p n : Nat) : AxisState :=
  { x with deltaSteps := x.posAfter (n / p), tickCounter := BitVec.ofNat 16 (n % p) }

theorem period_pos (rate freq : Half) : 0 < period rate freq :=
  Nat.lt_of_lt_of_le Nat.one_pos (Nat.le_max_right ..)

theorem period_lt (rate freq : Half) : period rate freq < 65536 :=
  Nat.max_lt.2 ⟨(threshold rate freq).isLt, by decide⟩

/-- Quotient and remainder one tick on, where a period ends. -/
theorem divMod_succ_of_end {n p : Nat} (h : n % p + 1 = p) :
    (n + 1) / p = n / p + 1 ∧ (n + 1) % p = 0 := by
  rw [Nat.div_mod_unique (by omega), Nat.mul_add, Nat.mul_one]
  have := Nat.mod_add_div n p
  omega

/-- Quotient and remainder one tick on, inside a period. -/
theorem divMod_succ_of_inside {n p : Nat} (hp : 0 < p) (h : n % p + 1 ≠ p) :
    (n + 1) / p = n / p ∧ (n + 1) % p = n % p + 1 := by
  rw [Nat.div_mod_unique hp]
  have := Nat.mod_add_div n p
  have := Nat.mod_lt n hp
  omega

/-- The counter of a coasting axis is the tick's place in its period (R101). -/
theorem AxisState.coasted_tickCounter (x : AxisState) (rate : Half) (n : Nat) :
    (x.coasted (period rate x.targetFreq) n).tickCounter.toNat = n % period rate x.targetFreq := by
  have := Nat.mod_lt n (period_pos rate x.targetFreq)
  have := period_lt rate x.targetFreq
  exact (BitVec.toNat_ofNat ..).trans (Nat.mod_eq_of_lt (by omega))

/-- A coasting axis pulses exactly at the end of a period (R102, R107). -/
theorem AxisState.coasted_fires_iff {x : AxisState} (ha : x.targetFreq ≠ 65535#16) (rate : Half)
    (n : Nat) :
    (x.coasted (period rate x.targetFreq) n).fires rate = true ↔
      n % period rate x.targetFreq + 1 = period rate x.targetFreq := by
  have hmod := Nat.mod_lt n (period_pos rate x.targetFreq)
  have hlt := period_lt rate x.targetFreq
  have hcount := x.coasted_tickCounter rate n
  have hperiod : period rate x.targetFreq = max (rate.toNat / x.targetFreq.toNat) 1 := by
    rw [period, threshold, BitVec.toNat_udiv]
  have hfires := AxisState.fires_iff (rate := rate)
    (x := x.coasted (period rate x.targetFreq) n) ha (by omega)
  rw [hcount] at hfires
  rw [hfires]
  change rate.toNat / x.targetFreq.toNat ≤ _ ↔ _
  omega

/-- One tick on: the record of the next place in the period. -/
theorem AxisState.ticked_coasted {ov : DeltaOverflow} {k : Nat} {x : AxisState} (hx : x.Coasts ov k)
    {rate : Half} {n : Nat} (hn : (n + 1) / period rate x.targetFreq ≤ k) :
    (x.coasted (period rate x.targetFreq) n).ticked rate =
      x.coasted (period rate x.targetFreq) (n + 1) := by
  have hfires := AxisState.coasted_fires_iff hx.active rate n
  by_cases hend : n % period rate x.targetFreq + 1 = period rate x.targetFreq
  · obtain ⟨hdiv, hmod⟩ := divMod_succ_of_end hend
    rw [AxisState.ticked_of_passes (hfires.2 hend)]
    · simp only [AxisState.coasted, hdiv, hmod, AxisState.posAfter_succ]
    · rintro ⟨hm, hp⟩
      refine hx.misses hm _ (hdiv ▸ Nat.le_add_left 1 _) hn ?_
      rw [hdiv, AxisState.posAfter_succ]
      exact hp
  · obtain ⟨hdiv, hmod⟩ := divMod_succ_of_inside (period_pos rate x.targetFreq) hend
    rw [AxisState.ticked_of_counts (Bool.eq_false_iff.2 fun h => hend (hfires.1 h))
      (AxisState.active_iff.2 hx.active)]
    simp only [AxisState.coasted, hdiv, hmod, BitVec.ofNat_add]

/-- `n` ticks of a coasting axis: `n / max(T, 1)` pulses in its direction (R107). -/
theorem AxisState.Coasts.run {ov : DeltaOverflow} {k : Nat} {x : AxisState} (hx : x.Coasts ov k)
    (rate : Half) (a : Axis) {n : Nat} (hn : n / period rate x.targetFreq ≤ k) :
    AxisRun ov rate a x n (x.coasted (period rate x.targetFreq) n)
      (List.replicate (n / period rate x.targetFreq) ⟨a, x.direction⟩) := by
  induction n with
  | zero =>
    have : x.coasted (period rate x.targetFreq) 0 = x := by
      simp only [AxisState.coasted, Nat.zero_div, Nat.zero_mod, AxisState.posAfter,
        Function.iterate_zero, id]
      rw [← hx.fresh]
    rw [this, Nat.zero_div]
    exact .start
  | succ n ih =>
    have hfires := AxisState.coasted_fires_iff hx.active rate n
    have hle : n / period rate x.targetFreq ≤ k :=
      (Nat.div_le_div_right n.le_succ).trans hn
    have hfault : (x.coasted (period rate x.targetFreq) n).tickFault ov rate = none := by
      refine AxisState.tickFault_eq_none_iff.2 ⟨hx.nonzero, fun hf => hx.clear.imp id fun hc => ?_⟩
      have := (divMod_succ_of_end (hfires.1 hf)).1
      exact hc _ (by omega)
    have hrun := (ih hle).tick hfault
    rw [AxisState.ticked_coasted hx hn] at hrun
    convert hrun using 1
    by_cases hend : n % period rate x.targetFreq + 1 = period rate x.targetFreq
    · rw [AxisState.pulses, if_pos (hfires.2 hend), (divMod_succ_of_end hend).1,
        List.replicate_succ']
      rfl
    · rw [AxisState.pulses, if_neg (mt hfires.1 hend),
        (divMod_succ_of_inside (period_pos ..) hend).1, List.append_nil]

/-! ## Positions in the integers -/

/-- While the last position is in the `int32` range, the position moves by one in the integers with
every pulse. -/
theorem AxisState.toInt_posAfter (x : AxisState) {d : Int} (hd : d = if x.direction then 1 else -1)
    {k : Nat} (hlo : -2147483648 ≤ x.deltaSteps.toInt + d * k)
    (hhi : x.deltaSteps.toInt + d * k ≤ 2147483647) {j : Nat} (hj : j ≤ k) :
    (x.posAfter j).toInt = x.deltaSteps.toInt + d * j := by
  have hmin := BitVec.le_toInt x.deltaSteps
  have hmax := BitVec.toInt_lt (x := x.deltaSteps)
  have hunit : d = 1 ∨ d = -1 := by rw [hd]; split <;> simp
  induction j with
  | zero => simp [AxisState.posAfter]
  | succ j ih =>
    have ih := ih (by omega)
    rw [AxisState.posAfter_succ, toInt_stepDelta_of_inRange, ← hd, ih]
    · push_cast; ring
    all_goals
      rw [← hd, ih]
      obtain rfl | rfl := hunit <;> omega

/-- No pulse before the last one stands at the end of the range. -/
theorem AxisState.not_atRangeEnd_posAfter (x : AxisState) {d : Int}
    (hd : d = if x.direction then 1 else -1) {k : Nat}
    (hlo : -2147483648 ≤ x.deltaSteps.toInt + d * k)
    (hhi : x.deltaSteps.toInt + d * k ≤ 2147483647) {j : Nat} (hj : j < k) :
    atRangeEnd x.direction (x.posAfter j) = false := by
  have hmin := BitVec.le_toInt x.deltaSteps
  have hmax := BitVec.toInt_lt (x := x.deltaSteps)
  have hunit : d = 1 ∨ d = -1 := by rw [hd]; split <;> simp
  refine Bool.eq_false_iff.2 fun hend => ?_
  rw [atRangeEnd_iff, ← hd, x.toInt_posAfter hd hlo hhi hj.le] at hend
  obtain rfl | rfl := hunit <;> omega

/-- Settles O58: the positions stay in the range and miss the target, so the axis coasts. -/
theorem setAxisPulsesExactlyUntilArrival : Obligations.SetAxisPulsesExactlyUntilArrival := by
  rintro s a n hs hov h0 ha hc k d rfl hd hlo hhi hmiss
  have hcoasts : (s.axis a).Coasts s.params.deltaOverflow
      (n / period s.tickRate (s.axis a).targetFreq) :=
    { nonzero := h0 a
      active := ha
      fresh := hc
      clear := .inr fun j hj => (s.axis a).not_atRangeEnd_posAfter hd hlo hhi hj
      misses := fun hm j h1 hj hp => hmiss hm j h1 hj <| by
        rw [← (s.axis a).toInt_posAfter hd hlo hhi hj, hp] }
  obtain ⟨t, hrun, hrec, hpulses, -⟩ :=
    runTicks_of_axisRun ⟨hs, fun b _ => h0 b, hov⟩ (hcoasts.run s.tickRate a le_rfl)
  refine ⟨t, hrun, hpulses, ?_, ?_, ?_⟩
  · rw [hrec, AxisState.coasted_tickCounter]
  · rw [hrec]
    exact (s.axis a).toInt_posAfter hd hlo hhi le_rfl
  · rw [hrec]
    rfl

/-- Settles O49: in `FrequencyControl` there is no arrival, so the axis coasts for ever. -/
theorem freshAxisPulsesExactly : Obligations.FreshAxisPulsesExactly := by
  intro s a n hs hov h0 ha hm hc
  have hcoasts : (s.axis a).Coasts s.params.deltaOverflow
      (n / period s.tickRate (s.axis a).targetFreq) :=
    { nonzero := h0 a
      active := ha
      fresh := hc
      clear := .inl hov
      misses := fun hdelta => by rw [hm] at hdelta; cases hdelta }
  obtain ⟨t, hrun, hrec, hpulses, -⟩ :=
    runTicks_of_axisRun ⟨hs, fun b _ => h0 b, .inl hov⟩ (hcoasts.run s.tickRate a le_rfl)
  refine ⟨t, hrun, hpulses, ?_, ?_, ?_⟩
  · rw [hrec, AxisState.coasted_tickCounter]
  · rw [hrec]
    rfl
  · rw [hrec]
    exact hm

/-! ## Travel (R108) -/

/-- An axis set toward its target `dist` steps away: in `DeltaControl` at an active rate, the counter 0
and the direction that of the target (R82, R108). -/
structure AxisState.SetToward (dist : Nat) (x : AxisState) : Prop where
  nonzero : x.targetFreq ≠ 0#16
  active : x.targetFreq ≠ 65535#16
  mode : x.controlMode = .deltaControl
  fresh : x.tickCounter = 0#16
  away : x.targetDelta ≠ x.deltaSteps
  toward : x.direction = decide (x.deltaSteps.toInt < x.targetDelta.toInt)
  distance : dist = (x.targetDelta.toInt - x.deltaSteps.toInt).natAbs

section

variable {dist : Nat} {x : AxisState}

theorem AxisState.SetToward.dist_pos (hx : x.SetToward dist) : 0 < dist := by
  have := mt BitVec.toInt_inj.1 hx.away
  have := hx.distance
  omega

/-- `dist` steps in the axis's direction end at the target. -/
theorem AxisState.SetToward.reaches (hx : x.SetToward dist) :
    x.deltaSteps.toInt + (if x.direction then 1 else -1) * dist = x.targetDelta.toInt := by
  have := hx.distance
  rw [hx.toward]
  by_cases hlt : x.deltaSteps.toInt < x.targetDelta.toInt <;> simp [hlt] <;> omega

/-- The path lies between two positions, so each of its positions is one of the integers. -/
theorem AxisState.SetToward.toInt_posAfter (hx : x.SetToward dist) {j : Nat} (hj : j ≤ dist) :
    (x.posAfter j).toInt = x.deltaSteps.toInt + (if x.direction then 1 else -1) * j := by
  have hmin := BitVec.le_toInt x.targetDelta
  have hmax := BitVec.toInt_lt (x := x.targetDelta)
  exact AxisState.toInt_posAfter x rfl (by rw [hx.reaches]; exact hmin)
    (by rw [hx.reaches]; omega) hj

/-- The path crosses no end of the range. -/
theorem AxisState.SetToward.not_atRangeEnd (hx : x.SetToward dist) {j : Nat} (hj : j < dist) :
    atRangeEnd x.direction (x.posAfter j) = false := by
  have hmin := BitVec.le_toInt x.targetDelta
  have hmax := BitVec.toInt_lt (x := x.targetDelta)
  exact x.not_atRangeEnd_posAfter rfl (by rw [hx.reaches]; exact hmin)
    (by rw [hx.reaches]; omega) hj

/-- The axis stands at its target after exactly `dist` pulses. -/
theorem AxisState.SetToward.posAfter_eq_target_iff (hx : x.SetToward dist) {j : Nat}
    (hj : j ≤ dist) : x.posAfter j = x.targetDelta ↔ j = dist := by
  rw [← BitVec.toInt_inj, hx.toInt_posAfter hj, ← hx.reaches]
  cases x.direction <;> simp

/-- Short of its last step the axis coasts. -/
theorem AxisState.SetToward.coasts (hx : x.SetToward dist) (ov : DeltaOverflow) :
    x.Coasts ov (dist - 1) where
  nonzero := hx.nonzero
  active := hx.active
  fresh := hx.fresh
  clear := .inr fun _ hj => hx.not_atRangeEnd (by omega)
  misses _ j _ hj hp := by
    have := hx.dist_pos
    have := (hx.posAfter_eq_target_iff (by omega)).1 hp
    omega

/-- `dist * p - 1` ticks are `dist - 1` whole periods and one period short of a tick. -/
theorem divMod_pred_mul {p dist : Nat} (hp : 0 < p) (hd : 0 < dist) :
    (dist * p - 1) / p = dist - 1 ∧ (dist * p - 1) % p = p - 1 := by
  obtain ⟨m, rfl⟩ : ∃ m, dist = m + 1 := ⟨dist - 1, by omega⟩
  rw [Nat.div_mod_unique hp, Nat.add_sub_cancel, Nat.add_mul, Nat.mul_comm m p]
  omega

/-- The axis coasts to one step before its target, arrives with the next pulse, and rests (R108). -/
theorem AxisState.SetToward.run (hx : x.SetToward dist) (ov : DeltaOverflow) (rate : Half) (a : Axis)
    (extra : Nat) :
    AxisRun ov rate a x (dist * period rate x.targetFreq + extra)
      { x with deltaSteps := x.targetDelta, controlMode := .frequencyControl,
               targetFreq := 65535#16, tickCounter := 0#16 }
      (List.replicate dist ⟨a, x.direction⟩) := by
  have hpos := Nat.mul_pos hx.dist_pos (period_pos rate x.targetFreq)
  obtain ⟨hdiv, hmod⟩ := divMod_pred_mul (period_pos rate x.targetFreq) hx.dist_pos
  have hfires := (AxisState.coasted_fires_iff hx.active rate
    (dist * period rate x.targetFreq - 1)).2 (by have := period_pos rate x.targetFreq; omega)
  have hcoast := (hx.coasts ov).run rate a hdiv.le
  have hnone : (x.coasted (period rate x.targetFreq)
      (dist * period rate x.targetFreq - 1)).tickFault ov rate = none := by
    refine AxisState.tickFault_eq_none_iff.2 ⟨hx.nonzero, fun _ => .inr ?_⟩
    exact hx.not_atRangeEnd (by have := hx.dist_pos; omega)
  have harrive : stepDelta x.direction
      (x.posAfter ((dist * period rate x.targetFreq - 1) / period rate x.targetFreq)) =
      x.targetDelta := by
    rw [hdiv, ← AxisState.posAfter_succ, Nat.sub_add_cancel hx.dist_pos]
    exact (hx.posAfter_eq_target_iff le_rfl).2 rfl
  have hrun := hcoast.tick hnone
  rw [AxisState.ticked_of_arrives hfires hx.mode harrive, AxisState.pulses, if_pos hfires, hdiv,
    Nat.sub_add_cancel hpos] at hrun
  have hpulses : List.replicate dist (⟨a, x.direction⟩ : Pulse) =
      List.replicate (dist - 1) ⟨a, x.direction⟩ ++ [⟨a, x.direction⟩] := by
    rw [← List.replicate_succ', Nat.sub_add_cancel hx.dist_pos]
  rw [hpulses]
  exact hrun.rest rfl extra

end

/-- Settles O50: positions wrap, so the other axes do not fault. -/
theorem travelReachesTargetAndStops : Obligations.TravelReachesTargetAndStops := by
  intro s a extra hs hov h0 ha hm hc hne hdir dist hdist
  have hx : (s.axis a).SetToward dist := ⟨h0 a, ha, hm, hc, hne, hdir, hdist⟩
  obtain ⟨t, hticks, hrec, hpulses, -⟩ :=
    runTicks_of_axisRun ⟨hs, fun b _ => h0 b, .inl hov⟩ (hx.run _ _ a extra)
  exact ⟨t, hticks, by rw [hrec], by rw [hrec], by rw [hrec], hpulses⟩

/-- Settles O59: the other axes are inactive, so they do not fault either. -/
theorem travelNeverOverflows : Obligations.TravelNeverOverflows := by
  intro s a extra hs hothers h0 ha hm hc hne hdir dist hdist
  have hx : (s.axis a).SetToward dist := ⟨h0, ha, hm, hc, hne, hdir, hdist⟩
  have hnonzero (b : Axis) (hb : b ≠ a) : (s.axis b).targetFreq ≠ 0#16 := by
    rw [hothers b hb]; decide
  obtain ⟨t, hticks, hrec, hpulses, -⟩ :=
    runTicks_of_axisRun ⟨hs, hnonzero, .inr hothers⟩ (hx.run _ _ a extra)
  exact ⟨t, hticks, by rw [hrec], by rw [hrec], by rw [hrec], hpulses⟩

end Sys2Proof.Machine
end

section
/-! The engine operations and the commands (R80 to R87, R110 to R132): each command's next state in one
equation, and what follows from it for the registers. -/

namespace Sys2Proof.Machine

/-! ## The engine operations as updates of one record (R81 to R83) -/

/-- What `set_delta_steps` makes of its axis. -/
def AxisState.withPosition (v : Word) (x : AxisState) : AxisState := { x with deltaSteps := v }

/-- What `set_target_freq` makes of its axis. -/
def AxisState.withFreq (f : Half) (d : Bool) (x : AxisState) : AxisState :=
  { x with controlMode := .frequencyControl, targetFreq := f, direction := d, tickCounter := 0#16 }

/-- What `set_target_delta` makes of its axis: it cancels at the target and moves toward it elsewhere. -/
def AxisState.withTarget (f : Half) (t : Word) (x : AxisState) : AxisState :=
  if t = x.deltaSteps then
    { x with controlMode := .frequencyControl, targetFreq := 65535#16, tickCounter := 0#16 }
  else
    { x with controlMode := .deltaControl, targetDelta := t, targetFreq := f,
             direction := decide (x.deltaSteps.toInt < t.toInt), tickCounter := 0#16 }

theorem AxisState.withTarget_deltaSteps (f : Half) (t : Word) (x : AxisState) :
    (x.withTarget f t).deltaSteps = x.deltaSteps := by
  unfold AxisState.withTarget; split <;> rfl

theorem State.setTargetFreq_eq_withFreq (s : State) (a : Axis) (f : Half) (d : Bool) :
    s.setTargetFreq a f d = s.setAxis a ((s.axis a).withFreq f d) := s.setTargetFreq_eq a f d

theorem State.setTargetDelta_eq_withTarget (s : State) (a : Axis) (f : Half) (t : Word) :
    s.setTargetDelta a f t = s.setAxis a ((s.axis a).withTarget f t) := by
  unfold AxisState.withTarget
  split
  · exact State.setTargetDelta_cancel ‹_› f
  · exact State.setTargetDelta_move ‹_› f

/-- Settles O21: one update of one record; 65535 and 0 are what `axis_tick` tests first. -/
theorem setTargetFreqWritesFourRegisters : Obligations.SetTargetFreqWritesFourRegisters := by
  intro s a f d
  simp only [State.setTargetFreq_eq_withFreq, State.axis_setAxis_same]
  refine ⟨rfl, fun b hb => s.axis_setAxis_ne _ hb, rfl, fun hf => ?_, fun hf => ?_⟩
  · exact axisTick_of_inactive (by rw [State.axis_setAxis_same]; exact hf)
  · exact axisTick_of_zero (by rw [State.axis_setAxis_same]; exact hf)

/-- Settles O22: the two branches of `AxisState.withTarget`. -/
theorem setTargetDeltaCancelsOrMoves : Obligations.SetTargetDeltaCancelsOrMoves := by
  intro s a f t
  simp only [State.setTargetDelta_eq_withTarget, State.axis_setAxis_same]
  exact ⟨fun h => if_pos h, fun h => if_neg h, fun b hb => s.axis_setAxis_ne _ hb, rfl⟩

/-! ## Motion commands (R111 to R113) -/

/-- The block with exactly the selected axes updated (R66). -/
def State.onSelected (s : State) (mask : Byte) (upd : AxisState → AxisState) : State :=
  { s with axes := .ofFn fun a => if maskBit mask a then upd (s.axis a) else s.axis a }

@[simp] theorem State.axis_onSelected (s : State) (mask : Byte) (upd : AxisState → AxisState)
    (a : Axis) :
    (s.onSelected mask upd).axis a = if maskBit mask a then upd (s.axis a) else s.axis a :=
  PerAxis.get_ofFn ..

/-- What the update keeps of every record, the command keeps of every axis. -/
theorem State.onSelected_keeps {α : Type} (s : State) (mask : Byte) {upd : AxisState → AxisState}
    (field : AxisState → α) (h : ∀ x, field (upd x) = field x) (a : Axis) :
    field ((s.onSelected mask upd).axis a) = field (s.axis a) := by
  rw [State.axis_onSelected]; split
  · exact h _
  · rfl

/-- A guarded command whose turn on each selected axis is one update of its record, and which returns no
bytes (R49, R110). -/
theorem complete_guardedOps {op : Axis → List MicroOp} {upd : AxisState → AxisState}
    (h : ∀ a s, runOps (op a) s = s.setAxis a (upd (s.axis a))) (mask : Byte) (s : State) :
    (runOps (guardedOps mask op) s).complete ⟨.zero, false⟩ =
      { s.afterNoBytes.onSelected mask upd with isrSuspended := false } := by
  rw [runOps_guardedOps, runOps_loop h, State.complete_determined]
  rfl

/-- A turn of `SET_TARGET_FREQ`. -/
theorem runOps_setTargetFreqWrites (a : Axis) (f : Half) (d : Bool) (s : State) :
    runOps ((setTargetFreqWrites a f d).map .write) s = s.setAxis a ((s.axis a).withFreq f d) :=
  (runOps_writes _ s).trans (s.setTargetFreq_eq_withFreq a f d)

/-- A turn of `SET_TARGET_DELTA`. -/
theorem runOps_readTarget (a : Axis) (f : Half) (t : Word) (s : State) :
    runOps [.readTarget a f t] s = s.setAxis a ((s.axis a).withTarget f t) :=
  s.setTargetDelta_eq_withTarget a f t

/-- A turn of `SET_DELTA_STEPS`. -/
theorem runOps_deltaSteps (a : Axis) (v : Word) (s : State) :
    runOps [.write (.deltaSteps a v)] s = s.setAxis a ((s.axis a).withPosition v) :=
  s.setDeltaSteps_eq a v

theorem exec_setTargetFreq (mask : Byte) (f : Half) (d : Byte) (s : State) :
    exec (.setTargetFreq mask f d) s =
      .next { s.afterNoBytes.onSelected mask (·.withFreq f (directionOf d)) with
        isrSuspended := false } :=
  (exec_eq _ s).trans <| congrArg _ <|
    complete_guardedOps (runOps_setTargetFreqWrites · f (directionOf d)) mask s

theorem exec_setTargetDelta (mask : Byte) (f : Half) (t : Word) (s : State) :
    exec (.setTargetDelta mask f t) s =
      .next { s.afterNoBytes.onSelected mask (·.withTarget f t) with isrSuspended := false } :=
  (exec_eq _ s).trans <| congrArg _ <|
    complete_guardedOps (runOps_readTarget · f t) mask s

theorem exec_setDeltaSteps (mask : Byte) (v : Word) (s : State) :
    exec (.setDeltaSteps mask v) s =
      .next { s.afterNoBytes.onSelected mask (·.withPosition v) with isrSuspended := false } :=
  (exec_eq _ s).trans <| congrArg _ <|
    complete_guardedOps (runOps_deltaSteps · v) mask s

/-- Settles O26. -/
theorem setTargetFreqCompletes : Obligations.SetTargetFreqCompletes := by
  intro mask f d s
  refine ⟨_, exec_setTargetFreq mask f d s, rfl, fun a => ?_⟩
  have hdir : directionOf d = decide (d ≠ 0#8) := by
    by_cases h : d = 0#8 <;> simp [directionOf, h]
  rw [← hdir]
  exact State.axis_onSelected ..

/-- Settles O27. -/
theorem setTargetDeltaCompletes : Obligations.SetTargetDeltaCompletes := by
  intro mask f t s
  exact ⟨_, exec_setTargetDelta mask f t s, rfl, fun a => State.axis_onSelected ..⟩

/-- Settles O28. -/
theorem setDeltaStepsCompletes : Obligations.SetDeltaStepsCompletes := by
  intro mask v s
  exact ⟨_, exec_setDeltaSteps mask v s, rfl, fun a => State.axis_onSelected ..⟩

/-! ## The response buffer (R42, R71) -/

/-- The bytes written at offset 0, and behind them the bytes as they were. -/
theorem toList_memWrite_zero (buf : Vector Byte 18) {bs : List Byte} (hbs : bs.length ≤ 18) :
    (memWrite buf 0 bs).toList = bs ++ buf.toList.drop bs.length := by
  refine List.ext_getElem (by simp; omega) fun j h _ => ?_
  have hj : j < 18 := by simpa using h
  rw [Vector.getElem_toList, memWrite_get _ _ _ _ hj, if_pos j.zero_le, Nat.sub_zero,
    List.getElem_append]
  split
  · rw [List.getD_eq_getElem _ _ ‹_›]
  · rw [List.getD_eq_default _ _ (by omega), List.getElem_drop, Vector.getElem_toList]
    congr 1
    omega

/-- A completed command that returns the bytes `bs` (R110, R71), and its response on the record of
responses (R190). -/
def State.afterBytes (s : State) (len : RespLen) (bs : List Byte) : State :=
  { s with resp := ⟨true, len, memWrite s.resp.buf 0 bs⟩, disp := .idle,
           replies := s.replies ++ [⟨true, bs⟩] }

/-- `COMPLETE` after a write of as many bytes as it reports. -/
theorem State.respond_writeResp (s : State) {len : RespLen} {bs : List Byte}
    (h : bs.length = len.bytes) : (s.writeResp 0 bs).respond true len = s.afterBytes len bs := by
  have hbs : bs.length ≤ 18 := by rw [h]; cases len <;> decide
  have htake : (memWrite s.resp.buf 0 bs).toList.take len.bytes = bs := by
    rw [toList_memWrite_zero _ hbs, ← h, List.take_left]
  simp only [State.respond, State.writeResp, State.afterBytes, htake]

/-- A write at offset 0 covers an earlier one of the same length. -/
theorem State.writeResp_writeResp (s : State) {bs cs : List Byte} (h : bs.length = cs.length) :
    (s.writeResp 0 bs).writeResp 0 cs = s.writeResp 0 cs := by
  have hbuf : memWrite (memWrite s.resp.buf 0 bs) 0 cs = memWrite s.resp.buf 0 cs := by
    refine Vector.ext fun j hj => ?_
    simp only [memWrite_get _ _ _ _ hj, if_pos j.zero_le, Nat.sub_zero]
    by_cases hc : j < cs.length
    · simp [hc]
    · simp [hc, show ¬ j < bs.length by omega]
  simp only [State.writeResp, hbuf]

/-- Byte `j` of a word, least significant first (R43). -/
theorem wordBytes_getD (v : Word) (j : Nat) (b : Byte) :
    (wordBytes v).getD j b = if j < 4 then v.extractLsb' (8 * j) 8 else b := by
  match j with
  | 0 | 1 | 2 | 3 => rfl
  | j + 4 => rw [if_neg (by omega)]; rfl

theorem memWrite_wordBytes_get (buf : Vector Byte 18) (v : Word) (j : Nat) (hj : j < 18) :
    (memWrite buf 0 (wordBytes v))[j] = if j < 4 then v.extractLsb' (8 * j) 8 else buf[j] := by
  rw [memWrite_get _ _ _ _ hj, if_pos j.zero_le, Nat.sub_zero, wordBytes_getD]

/-! ## `GET_DELTA_STEPS` (R120) -/

/-- The selected axis of highest index is the last one served. -/
theorem lastSelected_eq (mask : Byte) : lastSelected mask = (selectedAxes mask).getLast? := by
  simp only [lastSelected, selectedAxes, Axis.all, List.filter_cons, selects_eq_maskBit]
  cases maskBit mask .x <;> cases maskBit mask .y <;> cases maskBit mask .z <;> rfl

/-- Of several axes served in turn the last one's position stays. -/
theorem runOps_respondDelta (l : List Axis) (a : Axis) (s : State) :
    runOps ((l ++ [a]).flatMap fun b => [.respondDelta b]) s =
      s.writeResp 0 (wordBytes (s.axis a).deltaSteps) := by
  induction l generalizing s with
  | nil => rfl
  | cons b l ih =>
    have hlen (v w : Word) : (wordBytes v).length = (wordBytes w).length := rfl
    have hturn (rest : List MicroOp) : runOps (.respondDelta b :: rest) s =
        runOps rest (s.writeResp 0 (wordBytes (s.axis b).deltaSteps)) := rfl
    rw [List.cons_append, List.flatMap_cons, List.cons_append, hturn, List.nil_append, ih,
      State.axis_writeResp, State.writeResp_writeResp s (hlen _ _)]

theorem exec_getDeltaSteps {mask : Byte} {a : Axis} (h : lastSelected mask = some a) (s : State) :
    exec (.getDeltaSteps mask) s =
      .next ((s.suspendIsr false).afterBytes .four (wordBytes (s.axis a).deltaSteps)) := by
  obtain ⟨l, hl⟩ := List.getLast?_eq_some_iff.1 ((lastSelected_eq mask).symm.trans h)
  have hsome : (selectedAxes mask).isEmpty = false := by simp [hl]
  have hlen : (wordBytes (s.axis a).deltaSteps).length = RespLen.four.bytes := rfl
  rw [exec_eq, bodyOf, bodyGetDeltaSteps, hsome, runOps_guardedOps, hl, runOps_respondDelta,
    State.complete_determined, ← State.respond_writeResp _ hlen]
  generalize hbs : wordBytes (s.axis a).deltaSteps = bs
  rw [State.axis_suspendIsr, hbs]
  rfl

theorem exec_getDeltaSteps_none {mask : Byte} (h : lastSelected mask = none) (s : State) :
    exec (.getDeltaSteps mask) s = .next ((s.suspendIsr false).drawResponse.respond true .four) := by
  have hnil : selectedAxes mask = [] :=
    List.getLast?_eq_none_iff.1 ((lastSelected_eq mask).symm.trans h)
  rw [exec_eq, bodyOf, bodyGetDeltaSteps, runOps_guardedOps, hnil]
  rfl

/-- Settles O29: the position of the last axis served is in the four bytes written. -/
theorem getDeltaStepsReturnsLastSelected : Obligations.GetDeltaStepsReturnsLastSelected := by
  intro mask s a h
  exact ⟨_, exec_getDeltaSteps h s, rfl, fun j hj => memWrite_wordBytes_get _ _ j hj⟩

/-- Settles O30: the draw writes four bytes and no other. -/
theorem getDeltaStepsWithNoAxisSucceeds : Obligations.GetDeltaStepsWithNoAxisSucceeds := by
  intro mask s h
  refine ⟨_, exec_getDeltaSteps_none h s, ?_, fun j hj h4 => ?_⟩
  · rfl
  · exact memWrite_get_outside _ 0 _ j hj (.inr h4)

/-! ## `GET_ISR_FREQ` and `GET_IMU_MEASUREMENT` (R121, R122) -/

/-- A rate zero-extended to four bytes: its own two, then two zeros. -/
theorem rateResponse_eq (r : Half) :
    rateResponse r = [r.extractLsb' 0 8, r.extractLsb' 8 8, 0#8, 0#8] := by
  simp only [rateResponse, wordBytes, List.cons.injEq, and_true]
  refine ⟨?_, ?_, ?_, ?_⟩ <;> ext j hj <;> simp
  · exact fun _ => by omega
  · exact fun _ => by omega
  · exact fun _ => BitVec.getLsbD_of_ge _ _ (by omega)

theorem length_imuResponse (f : Frame) : (imuResponse f).length = 18 := rfl

theorem exec_getIsrFreq (s : State) :
    exec .getIsrFreq s = .next (s.afterBytes .four (rateResponse s.tickRate)) := by
  have hlen : (rateResponse s.tickRate).length = RespLen.four.bytes := rfl
  rw [exec_eq, ← State.respond_writeResp _ hlen]
  rfl

theorem exec_getImuMeasurement (s : State) :
    exec .getImuMeasurement s = .next (s.afterBytes .eighteen (imuResponse s.imuAvg)) := by
  have hlen : (imuResponse s.imuAvg).length = RespLen.eighteen.bytes := rfl
  rw [exec_eq, ← State.respond_writeResp _ hlen]
  rfl

/-- Settles O31: the four bytes written are the rate's own two and two zeros. -/
theorem getIsrFreqCompletes : Obligations.GetIsrFreqCompletes := by
  intro s
  refine ⟨_, exec_getIsrFreq s, ?_, fun j hj => ?_⟩
  · rw [rateResponse_eq]
    rfl
  · change (memWrite _ 0 (rateResponse s.tickRate))[j] = _
    rw [memWrite_get _ _ _ _ hj, if_pos j.zero_le, Nat.sub_zero, rateResponse_eq]
    match j with
    | 0 | 1 | 2 | 3 => rfl
    | j + 4 => rw [if_neg (by omega), if_neg (by omega)]; rfl

/-- Channel `k` of a frame stands at bytes `2k` and `2k + 1` of the response (R71). -/
theorem imuResponse_getElem? (f : Frame) {k : Nat} {c : Channel} (h : Channel.all[k]? = some c) :
    (imuResponse f)[2 * k]? = some ((f.get c).extractLsb' 0 8) ∧
      (imuResponse f)[2 * k + 1]? = some ((f.get c).extractLsb' 8 8) := by
  match k with
  | 0 | 1 | 2 | 3 | 4 | 5 | 6 | 7 | 8 => cases h; exact ⟨rfl, rfl⟩
  | k + 9 => cases h

/-- Settles O32: the eighteen bytes written fill the buffer. -/
theorem getImuMeasurementCompletes : Obligations.GetImuMeasurementCompletes := by
  intro s
  have hbuf : (memWrite s.resp.buf 0 (imuResponse s.imuAvg)).toList = imuResponse s.imuAvg := by
    have hrest : s.resp.buf.toList.drop (imuResponse s.imuAvg).length = [] :=
      List.drop_eq_nil_of_le (by rw [Vector.length_toList, length_imuResponse])
    rw [toList_memWrite_zero _ (length_imuResponse _).le, hrest, List.append_nil]
  refine ⟨_, exec_getImuMeasurement s, ?_, fun k c hk => ?_⟩
  · simp only [State.afterBytes, hbuf]
  · simp only [State.afterBytes, hbuf]
    exact imuResponse_getElem? s.imuAvg hk

/-! ## Configuration commands (R130 to R132) -/

/-- Settles O33: one write and `COMPLETE`, evaluated. -/
theorem setIsrFreqCompletes : Obligations.SetIsrFreqCompletes := fun _ _ => rfl

/-- Settles O34: two writes and `COMPLETE`, evaluated. -/
theorem enableCncCompletes : Obligations.EnableCncCompletes := fun _ => rfl

/-- Settles O35: two writes and `COMPLETE`; the state they leave is suspended. -/
theorem disableCncStopsTheEngine : Obligations.DisableCncStopsTheEngine :=
  fun _ => ⟨rfl, runEvents_replicate_of_fixed (stepEvent_tick_of_suspended rfl)⟩

/-- Settles O36: the four bytes of the rate read back as the rate and 0. -/
theorem isrFreqRoundTripIsExact : Obligations.IsrFreqRoundTripIsExact := by
  intro v s
  refine ⟨_, _, rateResponse v, setIsrFreqCompletes v s, exec_getIsrFreq _, rfl, rfl, ?_, ?_⟩
  · rw [rateResponse_eq]
    exact half_join v
  · rw [rateResponse_eq]
    exact (by decide : (0#8 ++ 0#8 : Half) = 0#16)

/-! ## Which commands write which registers (R49, R50, R183) -/

/-- `GET_DELTA_STEPS` writes the guard, the response and its record, and draws; nothing else. -/
theorem exec_getDeltaSteps_frame (mask : Byte) (s : State) :
    ∃ t, exec (.getDeltaSteps mask) s = .next t ∧
      t = { s with isrSuspended := false, resp := t.resp, disp := .idle, replies := t.replies,
                   draws := t.draws } := by
  cases h : lastSelected mask with
  | none => exact ⟨_, exec_getDeltaSteps_none h s, rfl⟩
  | some a => exact ⟨_, exec_getDeltaSteps h s, rfl⟩

/-- Settles O37: each command's next state in turn. -/
theorem guardedCommandClearsGlobalStop : Obligations.GuardedCommandClearsGlobalStop := by
  intro i s
  cases i with
  | setTargetFreq m f d => exact ⟨_, exec_setTargetFreq m f d s, fun _ => ⟨rfl, rfl⟩, nofun⟩
  | setTargetDelta m f t => exact ⟨_, exec_setTargetDelta m f t s, fun _ => ⟨rfl, rfl⟩, nofun⟩
  | setDeltaSteps m v => exact ⟨_, exec_setDeltaSteps m v s, fun _ => ⟨rfl, rfl⟩, nofun⟩
  | getDeltaSteps m =>
    obtain ⟨t, hexec, hframe⟩ := exec_getDeltaSteps_frame m s
    exact ⟨t, hexec, fun _ => by rw [hframe]; exact ⟨rfl, rfl⟩, nofun⟩
  | getImuMeasurement => exact ⟨_, exec_getImuMeasurement s, nofun, fun _ _ _ => ⟨rfl, rfl⟩⟩
  | getIsrFreq => exact ⟨_, exec_getIsrFreq s, nofun, fun _ _ _ => ⟨rfl, rfl⟩⟩
  | setIsrFreq f => exact ⟨_, setIsrFreqCompletes f s, nofun, fun _ _ _ => ⟨rfl, rfl⟩⟩
  | enableCnc => exact ⟨_, enableCncCompletes s, nofun, fun _ h => absurd rfl h⟩
  | disableCnc => exact ⟨_, (disableCncStopsTheEngine s).1, nofun, fun _ _ h => absurd rfl h⟩

/-- What no command writes (R53, R148): the parameters, the latched command, the outputs of `tick`, the
sampler and the schedule. -/
theorem exec_frame {i : Instr} {s t : State} (h : exec i s = .next t) :
    t = { s with axes := t.axes, tickRate := t.tickRate, isrSuspended := t.isrSuspended,
                 shieldEnabled := t.shieldEnabled, disp := .idle, resp := t.resp,
                 replies := t.replies, draws := t.draws } := by
  rw [exec_eq, Host.Outcome.next.injEq] at h
  rw [← h, State.complete_frame, show runOps _ s = _ from runOps_frame _ s]

/-- Settles O38: the frame of every command, and each command's next state in turn. -/
theorem eachRegisterHasItsOwnWriters : Obligations.EachRegisterHasItsOwnWriters := by
  intro i s t h
  refine ⟨by rw [exec_frame h]; simp, ?_⟩
  cases i with
  | setTargetFreq m f d =>
    cases (exec_setTargetFreq m f d s).symm.trans h
    exact ⟨fun _ => rfl, fun _ _ => rfl,
      fun _ => s.afterNoBytes.onSelected_keeps m AxisState.deltaSteps fun _ => rfl,
      fun hne => absurd rfl (hne m f d)⟩
  | setTargetDelta m f v =>
    cases (exec_setTargetDelta m f v s).symm.trans h
    exact ⟨fun _ => rfl, fun _ _ => rfl,
      fun _ => s.afterNoBytes.onSelected_keeps m AxisState.deltaSteps (·.withTarget_deltaSteps f v),
      fun _ hne => absurd rfl (hne m f v)⟩
  | setDeltaSteps m v =>
    cases (exec_setDeltaSteps m v s).symm.trans h
    refine ⟨fun _ => rfl, fun _ _ => rfl, fun hne => absurd rfl (hne m v), fun _ _ a => ?_⟩
    have hkeep {α : Type} (field : AxisState → α)
        (h : ∀ x, field (AxisState.withPosition v x) = field x) :=
      s.afterNoBytes.onSelected_keeps m field h a
    exact ⟨hkeep _ fun _ => rfl, hkeep _ fun _ => rfl, hkeep _ fun _ => rfl, hkeep _ fun _ => rfl,
      hkeep _ fun _ => rfl⟩
  | getDeltaSteps m =>
    obtain ⟨u, hexec, hframe⟩ := exec_getDeltaSteps_frame m s
    cases hexec.symm.trans h
    rw [hframe]
    exact ⟨fun _ => rfl, fun _ _ => rfl, fun _ _ => rfl, fun _ _ _ => ⟨rfl, rfl, rfl, rfl, rfl⟩⟩
  | getImuMeasurement =>
    cases (exec_getImuMeasurement s).symm.trans h
    exact ⟨fun _ => rfl, fun _ _ => rfl, fun _ _ => rfl, fun _ _ _ => ⟨rfl, rfl, rfl, rfl, rfl⟩⟩
  | getIsrFreq =>
    cases (exec_getIsrFreq s).symm.trans h
    exact ⟨fun _ => rfl, fun _ _ => rfl, fun _ _ => rfl, fun _ _ _ => ⟨rfl, rfl, rfl, rfl, rfl⟩⟩
  | setIsrFreq f =>
    cases (setIsrFreqCompletes f s).symm.trans h
    exact ⟨fun hne => absurd rfl (hne f), fun _ _ => rfl, fun _ _ => rfl,
      fun _ _ _ => ⟨rfl, rfl, rfl, rfl, rfl⟩⟩
  | enableCnc =>
    cases (enableCncCompletes s).symm.trans h
    exact ⟨fun _ => rfl, fun hne => absurd rfl hne, fun _ _ => rfl,
      fun _ _ _ => ⟨rfl, rfl, rfl, rfl, rfl⟩⟩
  | disableCnc =>
    cases (disableCncStopsTheEngine s).1.symm.trans h
    exact ⟨fun _ => rfl, fun _ hne => absurd rfl hne, fun _ _ => rfl,
      fun _ _ _ => ⟨rfl, rfl, rfl, rfl, rfl⟩⟩

end Sys2Proof.Machine
end

section
/-! The events (R6): power-on, when an event is taken and what it keeps, how `DECODE` ends a command, the
sampler. -/

namespace Sys2Proof.Machine

/-! ## Power-on (R170) -/

/-- The record of an axis after power-on: `init` and a free target (R80, R31). -/
theorem State.axis_powerOn (s : State) (deltas : PerAxis Word) (a : Axis) :
    (s.powerOn deltas).axis a =
      { (s.axis a).init (deltas.get a) with
        targetDelta := Config.freeWord s.draws (a.index + 1) } := by
  cases a <;> rfl

/-- Settles O1. -/
theorem powerCycleGivesResetValues : Obligations.PowerCycleGivesResetValues := by
  intro s deltas
  refine ⟨s.powerOn deltas, rfl, fun a => ?_, rfl, rfl, rfl, rfl, rfl, rfl, rfl⟩
  rw [State.axis_powerOn]
  exact ⟨rfl, rfl, rfl, rfl, rfl⟩

/-- Settles O2: `State.reset` is a literal, so each clause is an evaluation. -/
theorem resetStateHoldsGivenValues : Obligations.ResetStateHoldsGivenValues :=
  ⟨fun a => by cases a <;> decide, rfl, rfl, rfl, rfl, rfl⟩

/-- Settles O3: `State.reset` is a literal, and the checks are decidable. -/
theorem resetMeetsInvariant : Obligations.ResetMeetsInvariant := by
  unfold Obligations.ResetMeetsInvariant
  decide

/-- Settles O4: `init` makes every axis inactive, and a tick leaves a block with no active axis as it
is. -/
theorem ticksAfterResetChangeNothing : Obligations.TicksAfterResetChangeNothing := by
  intro s deltas n
  have hinactive (a : Axis) : ((s.powerOn deltas).axis a).targetFreq = inactiveFreq := by
    rw [State.axis_powerOn]
    rfl
  exact ⟨s.powerOn deltas, rfl,
    runEvents_replicate_of_fixed (stepEvent_tick_of_inactive hinactive) n⟩

/-! ## How `DECODE` ends a command (R69, R70, R141) -/

/-- Both errors end the command alike (R141). -/
theorem State.raise_eq_afterFailure (s : State) (e : CommandError) : s.raise e = s.afterFailure := rfl

theorem decode_of_unknown {ids : CmdIds} {cmd : Command} (h : ∀ c, ids.get c ≠ cmd.id) :
    decode ids cmd = .error .unknownCommand := by
  have hfind : ids.find cmd.id = none := by
    cases hf : ids.find cmd.id with
    | none => rfl
    | some c => exact absurd (CmdIds.get_of_find hf) (h c)
  simp [decode, hfind]

theorem decode_of_wrongSize {ids : CmdIds} (hinj : ids.injective = true) {cmd : Command} {c : Opcode}
    (hid : cmd.id = ids.get c) (hlen : cmd.pay.length ≠ c.size) :
    decode ids cmd = .error .invalidPayloadSize := by
  simp [decode, hid, Laws.CmdIds.find_get hinj, hlen]

theorem runStep_of_decoded {s : State} {i : Instr} (hd : s.disp = .busy0) (h : s.decoded = .ok i) :
    runStep s = exec i s := by simp [runStep, hd, h]

/-- Settles O19: at `Busy(0)` both events take `DECODE` first. -/
theorem failedCommandWritesOnlyResponse : Obligations.FailedCommandWritesOnlyResponse := by
  intro s e hd h
  have hdec : s.decoded = .error e := h
  constructor
  · simp [stepEvent, microStep, hd, decodeStep, hdec, State.raise_eq_afterFailure]
  · simp [stepEvent, runStep, hd, hdec, State.raise_eq_afterFailure]

/-- Settles O17. -/
theorem unknownIdFailsAndWritesNothing : Obligations.UnknownIdFailsAndWritesNothing :=
  fun s hd h => failedCommandWritesOnlyResponse s _ hd (decode_of_unknown h)

/-- Settles O18. -/
theorem wrongLengthFailsAndWritesNothing : Obligations.WrongLengthFailsAndWritesNothing :=
  fun s _ hinj hd hid hlen => failedCommandWritesOnlyResponse s _ hd (decode_of_wrongSize hinj hid hlen)

/-- Every command ends with success, the dispatcher idle and one response more (R110, R142). -/
theorem exec_reports (i : Instr) (s : State) :
    ∃ t, exec i s = .next t ∧ t.resp.ok = true ∧ t.disp = .idle ∧
      t.replies.length = s.replies.length + 1 := by
  refine ⟨_, exec_eq i s, ?_, State.complete_disp .., ?_⟩
  · rfl
  · rw [runOps_frame]
    obtain ⟨len, unspecified⟩ := (bodyOf i).fin
    cases unspecified
    · rw [State.complete_determined, State.respond_replies, List.length_append]; rfl
    · rw [State.complete_unspecified, State.respond_replies, State.drawResponse_replies,
        List.length_append]; rfl

/-- Settles O16: the id is found, the length is right, and no command fails after `DECODE`. -/
theorem knownIdAndLengthAlwaysSucceeds : Obligations.KnownIdAndLengthAlwaysSucceeds := by
  intro s c hinj hd hid hlen
  have hdec : s.decoded = .ok (decodeFields c s.cmd.pay) :=
    decode_eq_ok_iff.2 ⟨c, hid ▸ Laws.CmdIds.find_get hinj c, hlen, rfl⟩
  rw [stepEvent, runStep_of_decoded hd hdec]
  exact exec_reports _ s

/-! ## Which event a step takes, and when it is taken (R6) -/

/-- Settles O5. -/
theorem stepRunsDecodedCommand : Obligations.StepRunsDecodedCommand := by
  constructor
  · intro s i es hsched hd hdec
    rw [step_scheduled hsched]
    exact runStep_of_decoded hd hdec
  · intro s nbits w i hdec
    rw [step_scheduled (show (s.withFetchWord nbits w).schedule = .run :: s.schedule from rfl)]
    exact runStep_of_decoded
      (s := { s with cmd := tableCommand s.params.cmdIds nbits w, disp := .busy0 }) rfl hdec

/-- Settles O6: the free event where it is enabled, else a `tick`, which always is. -/
theorem stepTakesNextEvent : Obligations.StepTakesNextEvent := by
  refine ⟨fun s e es h => step_scheduled h, fun s h => ?_⟩
  by_cases hen : s.enabled (Config.freeEvent s.draws) = true
  · exact ⟨_, hen, by simp [step, State.nextEvent, h, hen]⟩
  · exact ⟨.tick, rfl, by simp [step, State.nextEvent, h, hen]⟩

/-- Settles O7: each event tests its enabling condition first. -/
theorem disabledEventsStopByName : Obligations.DisabledEventsStopByName := by
  refine ⟨fun s c h => ?_, fun s c hidle hlen => ?_, fun s hidle => ?_, fun s f h => ?_⟩
  · cases hd : s.disp with
    | idle => exact absurd hd h
    | busy0 | busy => simp [stepEvent, submitStep, hd]
  · have hfits : c.fits s.params = false := Bool.eq_false_iff.2 fun hf => by
      have := Command.fits_iff.1 hf
      omega
    simp [stepEvent, submitStep, hidle, hfits]
  · simp [stepEvent, microStep, runStep, hidle]
  · cases hd : s.disp with
    | idle => exact absurd hd h
    | busy0 | busy => simp [stepEvent, sampleStep, hd]

/-- The dispatcher takes its micro-step wherever it is not idle. -/
theorem exists_microStep {s : State} (h : s.disp ≠ .idle) : ∃ t, microStep s = .next t := by
  unfold microStep
  split
  · exact absurd ‹_› h
  all_goals exact ⟨_, rfl⟩

/-- The dispatcher runs its command to the end wherever it is not idle. -/
theorem exists_runStep {s : State} (h : s.disp ≠ .idle) : ∃ t, runStep s = .next t := by
  unfold runStep
  split
  · exact absurd ‹_› h
  · split
    · exact ⟨_, rfl⟩
    · exact ⟨_, exec_eq ..⟩
  · exact ⟨_, rfl⟩

/-- The sampler stores its frame wherever the dispatcher is idle (R161). -/
theorem sampleStep_of_idle {s : State} (h : s.disp = .idle) (f : Frame) :
    sampleStep f s = .next (s.imuSample f) := by simp [sampleStep, h]

/-- Every event answers a next state or a fault, and only a `tick` divides (R102). -/
theorem stepEvent_next_or_fault (e : Event) (s : State) :
    (∃ t, stepEvent e s = .next t) ∨
      ∃ f, stepEvent e s = .fault f ∧ (f = .divideByZero → e = .tick) := by
  obtain ⟨hsubmit, hlong, hidle, hsample⟩ := disabledEventsStopByName
  cases e with
  | reset deltas => exact .inl ⟨_, rfl⟩
  | submit c =>
    by_cases hd : s.disp = .idle
    · by_cases hf : c.pay.length ≤ s.params.maxPayload
      · exact .inl ⟨_, submitStep_eq_next_iff.2 ⟨hd, Command.fits_iff.2 hf, rfl⟩⟩
      · exact .inr ⟨_, hlong s c hd (Nat.lt_of_not_le hf), nofun⟩
    · exact .inr ⟨_, hsubmit s c hd, nofun⟩
  | micro =>
    by_cases hd : s.disp = .idle
    · exact .inr ⟨_, (hidle s hd).1, nofun⟩
    · exact .inl (exists_microStep hd)
  | run =>
    by_cases hd : s.disp = .idle
    · exact .inr ⟨_, (hidle s hd).2, nofun⟩
    · exact .inl (exists_runStep hd)
  | tick =>
    cases htick : tick s with
    | ok t => exact .inl ⟨t, stepEvent_tick_eq_next_iff.2 htick⟩
    | error f => exact .inr ⟨f, stepEvent_tick_eq_fault_iff.2 htick, fun _ => rfl⟩
  | imuSample f =>
    by_cases hd : s.disp = .idle
    · exact .inl ⟨_, sampleStep_of_idle hd f⟩
    · exact .inr ⟨_, hsample s f hd, nofun⟩

/-- Settles O9. -/
theorem stepNeverRefuses : Obligations.StepNeverRefuses := by
  intro s r h
  obtain ⟨t, ht⟩ | ⟨f, hf, -⟩ := stepEvent_next_or_fault s.nextEvent.1 s.nextEvent.2
  · cases ht.symm.trans h
  · cases hf.symm.trans h

/-! ## What the events keep -/

/-- What a micro-step of the dispatcher can write (R47). -/
theorem microStep_frame {s t : State} (h : microStep s = .next t) :
    t = { s with axes := t.axes, tickRate := t.tickRate, isrSuspended := t.isrSuspended,
                 shieldEnabled := t.shieldEnabled, disp := t.disp, resp := t.resp,
                 replies := t.replies, draws := t.draws } := by
  obtain ⟨-, rfl⟩ | ⟨k, fin, -, rfl⟩ | ⟨k, op, ops, fin, -, rfl⟩ := microStep_cases h
  · unfold decodeStep
    split <;> rfl
  · rw [State.complete_frame]
  · rw [show op.apply s = _ from op.apply_frame s]
    rfl

/-- The rest of a command at once writes no more than its micro-steps. -/
theorem runStep_frame {s t : State} (h : runStep s = .next t) :
    t = { s with axes := t.axes, tickRate := t.tickRate, isrSuspended := t.isrSuspended,
                 shieldEnabled := t.shieldEnabled, disp := t.disp, resp := t.resp,
                 replies := t.replies, draws := t.draws } := by
  obtain ⟨e, -, -, rfl⟩ | ⟨i, -, -, hexec⟩ | ⟨k, ops, fin, -, rfl⟩ := runStep_cases h
  · rfl
  · rw [exec_frame hexec]
  · rw [State.complete_frame, show runOps ops s = _ from runOps_frame ops s]

/-- No event writes a parameter or the schedule (log 2, log 15). -/
theorem stepEvent_keeps {e : Event} {s t : State} (h : stepEvent e s = .next t) :
    t.params = s.params ∧ t.schedule = s.schedule := by
  cases e with
  | reset deltas => cases h; exact ⟨rfl, rfl⟩
  | submit c =>
    obtain ⟨-, -, rfl⟩ := submitStep_cases h
    exact ⟨rfl, rfl⟩
  | micro => rw [microStep_frame h]; exact ⟨rfl, rfl⟩
  | run => rw [runStep_frame h]; exact ⟨rfl, rfl⟩
  | tick => rw [(tickWritesOnlyAxesAndOutputs s t h).1]; exact ⟨rfl, rfl⟩
  | imuSample f =>
    obtain ⟨-, rfl⟩ := sampleStep_cases h
    exact ⟨rfl, rfl⟩

/-- Settles O11. -/
theorem commandStaysLatched : Obligations.CommandStaysLatched := by
  intro s t e h hsubmit hreset
  cases e with
  | reset d => exact absurd rfl (hreset d)
  | submit c => exact absurd rfl (hsubmit c)
  | micro => rw [microStep_frame h]
  | run => rw [runStep_frame h]
  | tick => rw [(tickWritesOnlyAxesAndOutputs s t h).1]
  | imuSample f =>
    obtain ⟨-, rfl⟩ := sampleStep_cases h
    rfl

/-- Settles O47. -/
theorem onlyTickEmitsPulses : Obligations.OnlyTickEmitsPulses := by
  intro s t e h hreset htick
  cases e with
  | reset d => exact absurd rfl (hreset d)
  | submit c =>
    obtain ⟨-, -, rfl⟩ := submitStep_cases h
    exact ⟨rfl, rfl⟩
  | micro => rw [microStep_frame h]; exact ⟨rfl, rfl⟩
  | run => rw [runStep_frame h]; exact ⟨rfl, rfl⟩
  | tick => exact absurd rfl htick
  | imuSample f =>
    obtain ⟨-, rfl⟩ := sampleStep_cases h
    exact ⟨rfl, rfl⟩

/-- Taking the next event off the schedule, or drawing it, writes `schedule` and `draws` only. -/
theorem State.nextEvent_frame (s : State) :
    s.nextEvent.2 =
      { s with schedule := s.nextEvent.2.schedule, draws := s.nextEvent.2.draws } := by
  unfold State.nextEvent
  split <;> rfl

/-- Settles O12. -/
theorem parametersNeverChange : Obligations.ParametersNeverChange := by
  intro s t h
  rw [(stepEvent_keeps h).1, State.nextEvent_frame]

/-- Where `tickSafe` holds, a `tick` has a value. -/
theorem exists_tick_of_tickSafe {s : State} (h : s.tickSafe = true) :
    ∃ t, stepEvent .tick s = .next t := by
  cases hs : s.isrSuspended
  · have hnone (a : Axis) : s.axisFault a = none := by
      simp only [State.tickSafe, hs, Bool.false_or, Axis.forall_all, Bool.and_eq_true,
        Bool.or_eq_true, bne_iff_ne, beq_iff_eq, Bool.not_eq_true'] at h
      obtain ⟨h0, hend⟩ := h a
      refine AxisState.tickFault_eq_none_iff.2 ⟨h0, fun hf => ?_⟩
      obtain (hov | hinactive) | hin := hend
      · exact .inl hov
      · rw [AxisState.active_of_fires hf] at hinactive; cases hinactive
      · exact .inr hin
    exact ⟨_, stepEvent_tick_of_noFault hs hnone⟩
  · exact ⟨s, stepEvent_tick_of_suspended hs⟩

/-- Settles O8: each event answers where it is enabled, and keeps the rest of the schedule. -/
theorem enabledEventsAreTaken : Obligations.EnabledEventsAreTaken := by
  intro s e es hsched hen hsafe
  rw [step_scheduled hsched]
  suffices hnext : ∃ t, stepEvent e { s with schedule := es } = .next t by
    obtain ⟨t, ht⟩ := hnext
    exact ⟨t, ht, (stepEvent_keeps ht).2⟩
  cases e with
  | reset deltas => exact ⟨_, rfl⟩
  | submit c =>
    obtain ⟨hidle, hfits⟩ : s.disp = .idle ∧ c.fits s.params = true := by
      simpa [State.enabled] using hen
    exact ⟨_, submitStep_eq_next_iff.2 ⟨hidle, hfits, rfl⟩⟩
  | micro => exact exists_microStep (by simpa [State.enabled] using hen)
  | run => exact exists_runStep (by simpa [State.enabled] using hen)
  | tick => exact exists_tick_of_tickSafe (hsafe rfl)
  | imuSample f =>
    have hidle : s.disp = .idle := by simpa [State.enabled] using hen
    exact ⟨_, sampleStep_of_idle (s := { s with schedule := es }) hidle f⟩

/-! ## The sampler (R160, R161) -/

/-- Settles O57: the slot at `wp` is one of the window. -/
theorem sampleOverwritesOldestSlot : Obligations.SampleOverwritesOldestSlot := by
  intro s f hwindow hidle
  obtain ⟨hlen, hwp⟩ : s.imuBuf.length = s.params.imuW ∧ s.imuWp < s.params.imuW := by
    simpa [State.windowOk] using hwindow
  refine ⟨s.imuSample f, sampleStep_of_idle hidle f, rfl, List.length_set .., ?_,
    fun j hj => ?_, rfl⟩
  · exact List.getElem?_set_self (hlen ▸ hwp)
  · exact List.getElem?_set_ne hj.symm

/-- The sum of a window lies between its length times the bounds of one channel. -/
theorem channelSum_bounds (buf : List Frame) (c : Channel) :
    -32768 * (buf.length : Int) ≤ channelSum buf c ∧
      channelSum buf c ≤ 32767 * (buf.length : Int) := by
  induction buf with
  | nil => simp [channelSum]
  | cons f buf ih =>
    have hlo := BitVec.le_toInt (f.get c)
    have hhi := BitVec.toInt_lt (x := f.get c)
    simp only [channelSum, List.map_cons, List.sum_cons, List.length_cons] at ih ⊢
    push_cast
    omega

theorem Frame.get_ofFn (g : Channel → Half) (c : Channel) : (Frame.ofFn g).get c = g c := by
  cases c <;> rfl

/-- Settles O56: the shift is the division by `2^k` rounded down, and the mean of 16-bit values is one. -/
theorem averageIsFloorOfMean : Obligations.AverageIsFloorOfMean := by
  intro k buf c hlen
  obtain ⟨hlo, hhi⟩ := channelSum_bounds buf c
  have hpos : (0 : Int) < 2 ^ k := by positivity
  have hfloor : channelSum buf c >>> k = channelSum buf c / 2 ^ k := by
    rw [Int.shiftRight_eq_div_pow]
    norm_cast
  rw [hlen] at hlo hhi
  push_cast at hlo hhi
  have hmin : -32768 ≤ channelSum buf c / 2 ^ k := (Int.le_ediv_iff_mul_le hpos).2 hlo
  have hmax : channelSum buf c / 2 ^ k < 32768 := (Int.ediv_lt_iff_lt_mul hpos).2 (by omega)
  rw [average, Frame.get_ofFn, hfloor, BitVec.toInt_ofInt, Int.bmod_eq_of_le (by omega) (by omega),
    Int.fdiv_eq_ediv_of_nonneg _ hpos.le]
  rfl

end Sys2Proof.Machine

end

section
/-! The dispatcher's micro-steps, counted (R47, R110 to R132): one after another they are the rest of the
command, and an invariant of the micro-step is one of `run`. -/

namespace Sys2Proof.Machine

/-! ## Counting the micro-steps -/

/-- The micro-steps that `runOps` takes: each of the list, and the writes it decides on. -/
def opsCount : List MicroOp → State → Nat
  | [], _ => 0
  | op :: ops, s =>
    1 + (op.follow s).length + opsCount ops (applyWrites (op.follow s) (op.apply s))

theorem opsCount_append (ops rest : List MicroOp) (s : State) :
    opsCount (ops ++ rest) s = opsCount ops s + opsCount rest (runOps ops s) := by
  induction ops generalizing s with
  | nil => simp [opsCount, runOps]
  | cons op ops ih => simp only [List.cons_append, opsCount, runOps, ih, Nat.add_assoc]

theorem opsCount_writes (ws : List RegWrite) (s : State) :
    opsCount (ws.map MicroOp.write) s = ws.length := by
  induction ws generalizing s with
  | nil => rfl
  | cons w ws ih =>
    rw [List.map_cons, opsCount, ih, List.length_cons]
    exact Nat.add_comm ..

/-- One micro-step taken leaves one fewer. -/
theorem opsCount_step (op : MicroOp) (ops : List MicroOp) (s : State) :
    opsCount (op :: ops) s =
      opsCount ((op.follow s).map MicroOp.write ++ ops) (op.apply s) + 1 := by
  rw [opsCount_append, opsCount_writes, runOps_writes, opsCount]
  omega

theorem opsCount_setDisp (ops : List MicroOp) (s : State) (d : Disp) :
    opsCount ops (s.setDisp d) = opsCount ops s := by
  induction ops generalizing s with
  | nil => rfl
  | cons op ops ih =>
    rw [opsCount, op.apply_setDisp, op.follow_setDisp, applyWrites_setDisp, ih]
    rfl

/-! ## Micro-steps one after another -/

theorem microStep_of_done {s : State} {k : Nat} {fin : Finish} (h : s.disp = .busy k [] fin) :
    microStep s = .next (s.complete fin) := by simp [microStep, h]

theorem microStep_of_op {s : State} {k : Nat} {op : MicroOp} {ops : List MicroOp} {fin : Finish}
    (h : s.disp = .busy k (op :: ops) fin) :
    microStep s = .next ((op.apply s).setDisp
      (.busy (k + 1) ((op.follow s).map MicroOp.write ++ ops) fin)) := by simp [microStep, h]

theorem microStep_of_decoded {s : State} {i : Instr} (hd : s.disp = .busy0)
    (h : s.decoded = .ok i) :
    microStep s = .next (s.setDisp (.busy 1 (bodyOf i).ops (bodyOf i).fin)) := by
  simp [microStep, hd, decodeStep, h]

theorem runEvents_cons {e : Event} {es : List Event} {s t : State} (h : stepEvent e s = .next t) :
    runEvents (e :: es) s = runEvents es t := by rw [runEvents, h]

/-- Events answer a next state where the first one does and the others do after it. -/
theorem runEvents_cons_iff {e : Event} {es : List Event} {s t : State} :
    runEvents (e :: es) s = .next t ↔
      ∃ u, stepEvent e s = .next u ∧ runEvents es u = .next t := by
  rw [runEvents]
  cases stepEvent e s <;> simp

/-- From inside a body: the micro-steps and `COMPLETE` are the rest of the command, and before
`COMPLETE` the dispatcher is busy. -/
theorem runMicros_of_busy {n : Nat} {s : State} {k : Nat} {ops : List MicroOp} {fin : Finish}
    (hd : s.disp = .busy k ops fin) (hn : opsCount ops s = n) :
    runEvents (List.replicate (n + 1) .micro) s = .next ((runOps ops s).complete fin) ∧
      ∀ m ≤ n, ∃ t, runEvents (List.replicate m .micro) s = .next t ∧ t.disp ≠ .idle := by
  have hbusy : s.disp ≠ .idle := by rw [hd]; exact nofun
  induction n generalizing s k ops with
  | zero =>
    cases ops with
    | nil =>
      refine ⟨runEvents_cons (microStep_of_done hd), fun m hm => ?_⟩
      obtain rfl := Nat.le_zero.1 hm
      exact ⟨s, rfl, hbusy⟩
    | cons op ops => rw [opsCount_step] at hn; cases hn
  | succ n ih =>
    cases ops with
    | nil => cases hn
    | cons op ops =>
      have hstep : stepEvent .micro s = _ := microStep_of_op hd
      rw [opsCount_step, Nat.add_right_cancel_iff] at hn
      obtain ⟨hrun, hprefix⟩ := ih (s := (op.apply s).setDisp _) rfl
        (by rw [opsCount_setDisp]; exact hn) nofun
      rw [runOps_setDisp, State.complete_setDisp, runOps_step] at hrun
      refine ⟨(runEvents_cons hstep).trans hrun, fun m hm => ?_⟩
      cases m with
      | zero => exact ⟨s, rfl, hbusy⟩
      | succ m =>
        obtain ⟨t, ht, hne⟩ := hprefix m (Nat.le_of_succ_le_succ hm)
        exact ⟨t, (runEvents_cons hstep).trans ht, hne⟩

/-- From `Busy(0)`: `DECODE`, the body's micro-steps and `COMPLETE` are `exec`, and none but the last
leaves the dispatcher idle. -/
theorem runMicros_of_decoded {s : State} {i : Instr} (hd : s.disp = .busy0)
    (h : s.decoded = .ok i) :
    runEvents (List.replicate (opsCount (bodyOf i).ops s + 2) .micro) s = exec i s ∧
      ∀ n, n < opsCount (bodyOf i).ops s + 2 →
        ∃ t, runEvents (List.replicate n .micro) s = .next t ∧ t.disp ≠ .idle := by
  have hstep : stepEvent .micro s = _ := microStep_of_decoded hd h
  obtain ⟨hrun, hprefix⟩ := runMicros_of_busy
    (s := s.setDisp (.busy 1 (bodyOf i).ops (bodyOf i).fin)) rfl (opsCount_setDisp ..)
  rw [runOps_setDisp, State.complete_setDisp, ← exec_eq] at hrun
  refine ⟨(runEvents_cons hstep).trans hrun, fun n hn => ?_⟩
  cases n with
  | zero => exact ⟨s, rfl, by rw [hd]; exact nofun⟩
  | succ n =>
    obtain ⟨t, ht, hne⟩ := hprefix n (by omega)
    exact ⟨t, (runEvents_cons hstep).trans ht, hne⟩

/-! ## The counts the spec lists -/

/-- The loop over the selected axes takes the sum of its turns, where no turn touches another axis. -/
theorem opsCount_loop {op : Axis → List MicroOp} {count : AxisState → Nat}
    (hcount : ∀ a s, opsCount (op a) s = count (s.axis a))
    (hothers : ∀ a s b, b ≠ a → (runOps (op a) s).axis b = s.axis b) (mask : Byte) (s : State) :
    opsCount ((selectedAxes mask).flatMap op) s =
      (Axis.all.map fun a => if maskBit mask a then count (s.axis a) else 0).sum := by
  have hlist (l : List Axis) (hl : l.Nodup) (s : State) :
      opsCount (l.flatMap op) s = (l.map fun a => count (s.axis a)).sum := by
    induction l generalizing s with
    | nil => rfl
    | cons a l ih =>
      obtain ⟨ha, hl⟩ := List.nodup_cons.1 hl
      have hrest : (l.map fun b => count ((runOps (op a) s).axis b)) =
          l.map fun b => count (s.axis b) :=
        List.map_congr_left fun b hb => by rw [hothers a s b fun h => ha (h ▸ hb)]
      rw [List.flatMap_cons, opsCount_append, hcount, ih hl, hrest, List.map_cons, List.sum_cons]
  have hnodup : (selectedAxes mask).Nodup := List.Nodup.filter _ (by decide)
  have hsel : selects mask = maskBit mask := funext (selects_eq_maskBit mask)
  rw [hlist _ hnodup, List.sum_map_ite]
  simp [selectedAxes, hsel]

/-- `DECODE`, `ACQUIRE`, the loop, `RELEASE` and `COMPLETE` of a guarded command (R110). -/
theorem opsCount_guardedOps (i : Instr) {op : Axis → List MicroOp}
    (hcount : ∀ a s, opsCount (op a) s = axisMicroCount i (s.axis a))
    (hothers : ∀ a s b, b ≠ a → (runOps (op a) s).axis b = s.axis b) (mask : Byte) (s : State) :
    4 + loopMicroCount i mask s = opsCount (guardedOps mask op) s + 2 := by
  have hloop := opsCount_loop hcount hothers mask (s.suspendIsr true)
  have hacquire (rest : List MicroOp) :
      opsCount (.acquire :: rest) s = 1 + opsCount rest (s.suspendIsr true) := rfl
  have hrelease (u : State) : opsCount [.release] u = 1 := rfl
  simp only [State.axis_suspendIsr] at hloop
  rw [guardedOps, hacquire, opsCount_append, hloop, hrelease, loopMicroCount]
  omega

theorem length_setTargetDeltaWrites (a : Axis) (f : Half) (t p : Word) :
    (setTargetDeltaWrites a f t p).length = if t = p then 3 else 5 := by
  unfold setTargetDeltaWrites; split <;> rfl

/-- The count of R110 to R132 is `DECODE`, the body's micro-steps and `COMPLETE`. -/
theorem microCount_eq (i : Instr) (s : State) : microCount i s = opsCount (bodyOf i).ops s + 2 := by
  cases i with
  | setTargetFreq m f d =>
    refine opsCount_guardedOps (.setTargetFreq m f d) (fun a u => opsCount_writes _ u)
      (fun a u b hb => ?_) m s
    rw [runOps_setTargetFreqWrites, u.axis_setAxis_ne _ hb]
  | setTargetDelta m f t =>
    refine opsCount_guardedOps (.setTargetDelta m f t) (fun a u => ?_) (fun a u b hb => ?_) m s
    · change 1 + (setTargetDeltaWrites a f t (u.axis a).deltaSteps).length + 0 = _
      rw [length_setTargetDeltaWrites, axisMicroCount]
      split <;> rfl
    · rw [runOps_readTarget, u.axis_setAxis_ne _ hb]
  | setDeltaSteps m v =>
    refine opsCount_guardedOps (.setDeltaSteps m v) (fun _ _ => rfl) (fun a u b hb => ?_) m s
    rw [runOps_deltaSteps, u.axis_setAxis_ne _ hb]
  | getDeltaSteps m =>
    exact opsCount_guardedOps (.getDeltaSteps m) (fun _ _ => rfl) (fun _ _ _ _ => rfl) m s
  | getImuMeasurement | setIsrFreq | enableCnc | disableCnc | getIsrFreq => rfl

theorem axisMicroCount_le (i : Instr) (x : AxisState) : axisMicroCount i x ≤ 6 := by
  cases i with
  | setTargetDelta m f t => rw [axisMicroCount]; split <;> omega
  | setTargetFreq | setDeltaSteps | getDeltaSteps | getImuMeasurement | setIsrFreq | enableCnc
  | disableCnc | getIsrFreq => simp [axisMicroCount]

theorem loopMicroCount_le (i : Instr) (mask : Byte) (s : State) : loopMicroCount i mask s ≤ 18 := by
  have hturn (a : Axis) : (if maskBit mask a then axisMicroCount i (s.axis a) else 0) ≤ 6 := by
    split
    · exact axisMicroCount_le i _
    · exact Nat.zero_le _
  have hx := hturn .x
  have hy := hturn .y
  have hz := hturn .z
  simp only [loopMicroCount, Axis.all, List.map_cons, List.map_nil, List.sum_cons, List.sum_nil]
  omega

/-- The longest command has 22 micro-steps (R24, R112). -/
theorem microCount_le (i : Instr) (s : State) : microCount i s ≤ 22 := by
  cases i with
  | setTargetFreq m | setTargetDelta m | getDeltaSteps m | setDeltaSteps m =>
    exact Nat.add_le_add_left (loopMicroCount_le _ m s) 4
  | getImuMeasurement | setIsrFreq | enableCnc | disableCnc | getIsrFreq => simp [microCount]

/-- Settles O52: the count is that of the body and its two ends, and micro-steps one after another are
the command. -/
theorem microStepsRefineExec : Obligations.MicroStepsRefineExec := by
  intro s i hd hdec
  obtain ⟨hrun, hprefix⟩ := runMicros_of_decoded hd hdec
  rw [← microCount_eq] at hrun hprefix
  exact ⟨hrun, microCount_le i s, hprefix⟩

/-! ## Invariants of `run` -/

/-- An invariant of one event is one of any number of them. -/
theorem invariant_replicate {P : State → Prop} {e : Event}
    (hP : ∀ s t, P s → stepEvent e s = .next t → P t) {n : Nat} {s t : State} (hs : P s)
    (h : runEvents (List.replicate n e) s = .next t) : P t := by
  induction n generalizing s with
  | zero => cases h; exact hs
  | succ n ih =>
    obtain ⟨u, hstep, hrest⟩ := runEvents_cons_iff.1 h
    exact ih (hP _ _ hs hstep) hrest

/-- `run` is some number of micro-steps (log 17). -/
theorem exists_micros_eq_runStep {s : State} (h : s.disp ≠ .idle) :
    ∃ n, runEvents (List.replicate n .micro) s = runStep s := by
  cases hd : s.disp with
  | idle => exact absurd hd h
  | busy0 =>
    cases hdec : s.decoded with
    | error e =>
      obtain ⟨hmicro, hrun⟩ := failedCommandWritesOnlyResponse s e hd hdec
      exact ⟨1, (runEvents_cons hmicro).trans hrun.symm⟩
    | ok i => exact ⟨_, (runMicros_of_decoded hd hdec).1.trans (runStep_of_decoded hd hdec).symm⟩
  | busy k ops fin => exact ⟨_, (runMicros_of_busy hd rfl).1.trans (by simp [runStep, hd])⟩

/-- What every micro-step keeps, `run` keeps. -/
theorem runStep_keeps_of_microStep_keeps {P : State → Prop}
    (hP : ∀ s t, P s → microStep s = .next t → P t) {s t : State} (hs : P s)
    (h : runStep s = .next t) : P t := by
  have hbusy : s.disp ≠ .idle := fun hidle => by simp [runStep, hidle] at h
  obtain ⟨n, hn⟩ := exists_micros_eq_runStep hbusy
  exact invariant_replicate (e := .micro) hP hs (hn.trans h)

end Sys2Proof.Machine
end

section
/-! The invariants (R18, R24, R25, R49, R160, R180 H1): each part is kept by a micro-step, hence by `run`,
and by every other event. -/

namespace Sys2Proof.Machine

/-! ## The bracket (R49) -/

/-- What the discipline says of the next micro-step. -/
theorem bracketed_cons_iff {held : Bool} {op : MicroOp} {ops : List MicroOp} :
    bracketed held (op :: ops) = true ↔
      (op = .acquire ∧ held = false ∧ bracketed true ops = true) ∨
      (op = .release ∧ held = true ∧ bracketed false ops = true) ∨
      (op ≠ .acquire ∧ op ≠ .release ∧ op.onAxis = held ∧ bracketed held ops = true) := by
  cases op <;> simp [bracketed]

/-- Micro-steps on the axis file stand inside the bracket. -/
theorem bracketed_append_onAxis {ops : List MicroOp} (h : ops.all MicroOp.onAxis = true)
    (rest : List MicroOp) : bracketed true (ops ++ rest) = bracketed true rest := by
  induction ops with
  | nil => rfl
  | cons op ops ih =>
    obtain ⟨hop, hops⟩ := Bool.and_eq_true_iff.1 h
    rw [List.cons_append, ← ih hops]
    cases op with
    | acquire | release | respondRate | respondImu => cases hop
    | write w => simp [bracketed, hop]
    | readTarget | respondDelta => simp [bracketed, MicroOp.onAxis]

theorem bracketed_guardedOps {op : Axis → List MicroOp} (h : ∀ a, (op a).all MicroOp.onAxis = true)
    (mask : Byte) : bracketed false (guardedOps mask op) = true := by
  have hloop : ((selectedAxes mask).flatMap op).all MicroOp.onAxis = true := by
    simp only [List.all_flatMap, List.all_eq_true] at h ⊢
    exact fun a _ => h a
  simp only [guardedOps, bracketed, bracketed_append_onAxis hloop]
  rfl

/-- The micro-steps to come are inside a bracket or outside one, not both. -/
theorem not_bracketed_false_of_true {ops : List MicroOp} (h : bracketed true ops = true) :
    bracketed false ops = false := by
  cases ops with
  | nil => cases h
  | cons op ops =>
    obtain ⟨-, hheld, -⟩ | ⟨rfl, -, -⟩ | ⟨hacquire, -, haxis, -⟩ := bracketed_cons_iff.1 h
    · cases hheld
    · rfl
    · refine Bool.eq_false_iff.2 fun h' => ?_
      obtain ⟨rfl, -, -⟩ | ⟨-, hheld, -⟩ | ⟨-, -, haxis', -⟩ := bracketed_cons_iff.1 h'
      · exact hacquire rfl
      · cases hheld
      · cases haxis.symm.trans haxis'

/-- Every command keeps the discipline of the guard (R49, R50). -/
theorem bracketed_bodyOf (i : Instr) : bracketed false (bodyOf i).ops = true := by
  cases i with
  | setTargetFreq m f d => exact bracketed_guardedOps (fun _ => rfl) m
  | setTargetDelta m f t => exact bracketed_guardedOps (fun _ => rfl) m
  | getDeltaSteps m => exact bracketed_guardedOps (fun _ => rfl) m
  | setDeltaSteps m v => exact bracketed_guardedOps (fun _ => rfl) m
  | getImuMeasurement | setIsrFreq | enableCnc | disableCnc | getIsrFreq => rfl

/-- Only the read of `set_target_delta` decides on writes, and they are writes to the axis file. -/
theorem follow_onAxis (op : MicroOp) (s : State) :
    ((op.follow s).map MicroOp.write).all MicroOp.onAxis = true := by
  cases op with
  | readTarget a f t =>
    rw [List.all_map]
    exact setTargetDeltaWrites_onAxis a f t (s.getDeltaSteps a)
  | acquire | release | write | respondDelta | respondRate | respondImu => rfl

theorem follow_eq_nil {op : MicroOp} (h : op.onAxis = false) (s : State) : op.follow s = [] := by
  cases op with
  | readTarget a f t => cases h
  | acquire | release | write | respondDelta | respondRate | respondImu => rfl

/-- A micro-step on the axis file leaves the guard alone. -/
theorem apply_isrSuspended {op : MicroOp} (h : op.onAxis = true) (s : State) :
    (op.apply s).isrSuspended = s.isrSuspended := by
  cases op with
  | write w => rw [MicroOp.apply, RegWrite.apply_onAxis h]
  | readTarget | respondDelta => rfl
  | acquire | release | respondRate | respondImu => cases h

theorem guarded_eq_true_iff {s : State} :
    s.guarded = true ↔ ∀ k ops fin, s.disp = .busy k ops fin →
      bracketed false ops = true ∨ (bracketed true ops = true ∧ s.isrSuspended = true) := by
  unfold State.guarded
  cases hd : s.disp <;> simp

theorem guarded_of_idle {s : State} (h : s.disp = .idle) : s.guarded = true := by
  simp [State.guarded, h]

/-- The guard stays held inside every bracket (R49). -/
theorem guarded_of_microStep {s t : State} (hs : s.guarded = true) (h : microStep s = .next t) :
    t.guarded = true := by
  obtain ⟨-, rfl⟩ | ⟨k, fin, -, rfl⟩ | ⟨k, op, ops, fin, hd, rfl⟩ := microStep_cases h
  · unfold decodeStep
    split
    · exact guarded_of_idle rfl
    · refine guarded_eq_true_iff.2 fun _ _ _ hd => .inl ?_
      cases hd
      exact bracketed_bodyOf _
  · exact guarded_of_idle (State.complete_disp ..)
  · refine guarded_eq_true_iff.2 fun _ _ _ hd' => ?_
    cases hd'
    simp only [State.setDisp_isrSuspended]
    obtain hout | ⟨hin, hsus⟩ := guarded_eq_true_iff.1 hs _ _ _ hd
    · obtain ⟨rfl, -, hops⟩ | ⟨-, hheld, -⟩ | ⟨-, -, haxis, hops⟩ := bracketed_cons_iff.1 hout
      · exact .inr ⟨hops, rfl⟩
      · cases hheld
      · rw [follow_eq_nil haxis]
        exact .inl hops
    · obtain ⟨-, hheld, -⟩ | ⟨rfl, -, hops⟩ | ⟨-, -, haxis, hops⟩ := bracketed_cons_iff.1 hin
      · cases hheld
      · exact .inl hops
      · rw [bracketed_append_onAxis (follow_onAxis op s), apply_isrSuspended haxis]
        exact .inr ⟨hops, hsus⟩

/-- Settles O51: inside a bracket the invariant says the guard is held, and a tick is then lost. -/
theorem tickInsideBracketChangesNothing : Obligations.TickInsideBracketChangesNothing := by
  rintro s ⟨-, -, -, hguarded, -⟩ hin
  refine stepEvent_tick_of_suspended ?_
  unfold State.inBracket at hin
  split at hin
  · obtain hout | ⟨-, hsus⟩ := guarded_eq_true_iff.1 hguarded _ _ _ ‹_›
    · rw [not_bracketed_false_of_true hin] at hout; cases hout
    · exact hsus
  · cases hin

/-! ## The index of the micro-step (R24) -/

theorem opsCost_append (ops rest : List MicroOp) :
    opsCost (ops ++ rest) = opsCost ops + opsCost rest := by
  induction ops with
  | nil => simp [opsCost]
  | cons op ops ih => simp only [List.cons_append, opsCost, ih, Nat.add_assoc]

/-- The cost of a micro-step covers it and the writes it decides on (R82). -/
theorem follow_cost_lt (op : MicroOp) (s : State) :
    opsCost ((op.follow s).map MicroOp.write) + 1 ≤ op.cost := by
  have hwrites (ws : List RegWrite) : opsCost (ws.map MicroOp.write) = ws.length := by
    induction ws with
    | nil => rfl
    | cons w ws ih => rw [List.map_cons, opsCost, ih, List.length_cons]; exact Nat.add_comm ..
  rw [hwrites]
  cases op with
  | readTarget a f t =>
    rw [MicroOp.follow, length_setTargetDeltaWrites, MicroOp.cost]
    split <;> omega
  | acquire | release | write | respondDelta | respondRate | respondImu => exact le_rfl

/-- Three axes of at most six micro-steps each, and the bracket. -/
theorem opsCost_guardedOps_le {op : Axis → List MicroOp} (h : ∀ a, opsCost (op a) ≤ 6)
    (mask : Byte) : opsCost (guardedOps mask op) ≤ 20 := by
  have hloop (l : List Axis) : opsCost (l.flatMap op) ≤ 6 * l.length := by
    induction l with
    | nil => exact le_rfl
    | cons a l ih =>
      have := h a
      rw [List.flatMap_cons, opsCost_append, List.length_cons]
      omega
  have hlen : (selectedAxes mask).length ≤ 3 := List.length_filter_le ..
  have := hloop (selectedAxes mask)
  rw [guardedOps, opsCost, opsCost_append]
  change 1 + (_ + 1) ≤ 20
  omega

theorem opsCost_bodyOf_le (i : Instr) : opsCost (bodyOf i).ops ≤ 20 := by
  cases i with
  | setTargetFreq m f d =>
    exact opsCost_guardedOps_le
      (fun _ => by simp [opsCost, MicroOp.cost, setTargetFreqWrites]) m
  | setTargetDelta m f t => exact opsCost_guardedOps_le (fun _ => by simp [opsCost, MicroOp.cost]) m
  | getDeltaSteps m => exact opsCost_guardedOps_le (fun _ => by simp [opsCost, MicroOp.cost]) m
  | setDeltaSteps m v => exact opsCost_guardedOps_le (fun _ => by simp [opsCost, MicroOp.cost]) m
  | getImuMeasurement | setIsrFreq | enableCnc | disableCnc | getIsrFreq =>
    simp [bodyOf, bodyGetImuMeasurement, bodySetIsrFreq, bodyEnableCnc, bodyDisableCnc,
      bodyGetIsrFreq, opsCost, MicroOp.cost]

theorem indexBounded_eq_true_iff {s : State} :
    s.indexBounded = true ↔ ∀ k ops fin, s.disp = .busy k ops fin →
      1 ≤ k ∧ k + opsCost ops + 1 ≤ 22 := by
  unfold State.indexBounded
  cases hd : s.disp <;> simp

theorem indexBounded_of_idle {s : State} (h : s.disp = .idle) : s.indexBounded = true := by
  simp [State.indexBounded, h]

/-- The micro-step index stays within 22 (R24). -/
theorem indexBounded_of_microStep {s t : State} (hs : s.indexBounded = true)
    (h : microStep s = .next t) : t.indexBounded = true := by
  obtain ⟨-, rfl⟩ | ⟨k, fin, -, rfl⟩ | ⟨k, op, ops, fin, hd, rfl⟩ := microStep_cases h
  · unfold decodeStep
    split
    · exact indexBounded_of_idle rfl
    · rename_i i _
      refine indexBounded_eq_true_iff.2 fun _ _ _ hd => ?_
      have := opsCost_bodyOf_le i
      cases hd
      omega
  · exact indexBounded_of_idle (State.complete_disp ..)
  · refine indexBounded_eq_true_iff.2 fun _ _ _ hd' => ?_
    obtain ⟨hk, hbound⟩ := indexBounded_eq_true_iff.1 hs _ _ _ hd
    have := follow_cost_lt op s
    cases hd'
    rw [opsCost] at hbound
    rw [opsCost_append]
    omega

/-! ## The axis registers under a micro-step -/

/-- A register write sets a counter to 0 or leaves it alone. -/
theorem RegWrite.apply_tickCounter (w : RegWrite) (s : State) (a : Axis) :
    ((w.apply s).axis a).tickCounter = (s.axis a).tickCounter ∨
      ((w.apply s).axis a).tickCounter = 0#16 := by
  cases w with
  | clearCounter b =>
    by_cases h : a = b
    · exact .inr (by rw [h, RegWrite.apply, State.axis_setAxis_same]; rfl)
    · exact .inl (by rw [RegWrite.apply, State.axis_setAxis_ne _ _ h])
  | controlMode b | targetFreq b | direction b | targetDelta b | deltaSteps b =>
    rw [RegWrite.apply, State.axis_setAxis]
    split
    · exact .inl (by rw [‹a = b›])
    · exact .inl rfl
  | tickRate | isrSuspended | shieldEnabled => exact .inl rfl

/-- A register write changes no rate but that of its axis. -/
theorem RegWrite.apply_targetFreq (w : RegWrite) (s : State) (a : Axis) :
    ((w.apply s).axis a).targetFreq = (s.axis a).targetFreq ∨
      ∃ f, w = .targetFreq a f ∧ ((w.apply s).axis a).targetFreq = f := by
  cases w with
  | targetFreq b f =>
    by_cases h : a = b
    · exact .inr ⟨f, by rw [h], by rw [h, RegWrite.apply, State.axis_setAxis_same]⟩
    · exact .inl (by rw [RegWrite.apply, State.axis_setAxis_ne _ _ h])
  | controlMode b | clearCounter b | direction b | targetDelta b | deltaSteps b =>
    rw [RegWrite.apply, State.axis_setAxis]
    split
    · exact .inl (by rw [‹a = b›])
    · exact .inl rfl
  | tickRate | isrSuspended | shieldEnabled => exact .inl rfl

/-- A micro-step that is no register write leaves the axis file alone. -/
theorem MicroOp.apply_axes (op : MicroOp) (s : State) :
    (∃ w, op = .write w) ∨ (op.apply s).axes = s.axes := by
  cases op with
  | write w => exact .inl ⟨w, rfl⟩
  | acquire | release | readTarget => exact .inr rfl
  | respondDelta | respondRate | respondImu => exact .inr (State.writeResp_axes ..)

/-- `DECODE` and `COMPLETE` leave the axis file alone. -/
theorem microStep_axes {s t : State} (h : microStep s = .next t) :
    t.axes = s.axes ∨ ∃ k w ops fin, s.disp = .busy k (.write w :: ops) fin ∧
      t.axes = (w.apply s).axes := by
  obtain ⟨-, rfl⟩ | ⟨k, fin, -, rfl⟩ | ⟨k, op, ops, fin, hd, rfl⟩ := microStep_cases h
  · unfold decodeStep
    split <;> exact .inl rfl
  · exact .inl (by rw [State.complete_frame])
  · obtain ⟨w, rfl⟩ | haxes := op.apply_axes s
    · exact .inr ⟨k, w, ops, fin, hd, rfl⟩
    · exact .inl haxes

/-! ## The counters (R18) -/

theorem countersBounded_iff {s : State} :
    s.countersBounded = true ↔ ∀ a, (s.axis a).tickCounter.toNat ≤ 65534 := by
  simp [State.countersBounded]

theorem countersBounded_of_axes_eq {s t : State} (h : t.axes = s.axes)
    (hs : s.countersBounded = true) : t.countersBounded = true :=
  countersBounded_iff.2 fun a => by
    rw [State.axis_of_axes_eq h]; exact countersBounded_iff.1 hs a

theorem countersBounded_of_microStep {s t : State} (hs : s.countersBounded = true)
    (h : microStep s = .next t) : t.countersBounded = true := by
  obtain haxes | ⟨k, w, ops, fin, -, haxes⟩ := microStep_axes h
  · exact countersBounded_of_axes_eq haxes hs
  · refine countersBounded_iff.2 fun a => ?_
    rw [State.axis_of_axes_eq haxes]
    obtain hkeep | hclear := w.apply_tickCounter s a
    · rw [hkeep]; exact countersBounded_iff.1 hs a
    · rw [hclear]; decide

/-- A counter that did not reach the threshold is below it, so below 65535 (R18, R102). -/
theorem AxisState.ticked_tickCounter_le {rate : Half} {x : AxisState}
    (hx : x.tickCounter.toNat ≤ 65534) : (x.ticked rate).tickCounter.toNat ≤ 65534 := by
  cases hf : x.fires rate
  · cases ha : x.active
    · rw [AxisState.ticked, hf, ha]; exact hx
    · have hnot : ¬ rate.toNat / x.targetFreq.toNat ≤ x.tickCounter.toNat + 1 := fun hle => by
        rw [(AxisState.fires_iff (AxisState.active_iff.1 ha) hx).2 hle] at hf; cases hf
      have hquot : rate.toNat / x.targetFreq.toNat ≤ rate.toNat := Nat.div_le_self ..
      have hrate := rate.isLt
      rw [AxisState.ticked_of_counts hf ha, BitVec.toNat_add]
      simp only [BitVec.toNat_ofNat]
      omega
  · rw [AxisState.ticked_tickCounter_of_fires hf]; decide

theorem countersBounded_ticked {s : State} (hs : s.countersBounded = true) :
    s.ticked.countersBounded = true :=
  countersBounded_iff.2 fun a => by
    rw [State.axis_ticked]
    exact AxisState.ticked_tickCounter_le (countersBounded_iff.1 hs a)

/-! ## The invariant of the block -/

/-- The payload and the window rest on four fields. -/
theorem payload_window_of_frame {s t : State} (hp : t.params = s.params) (hc : t.cmd = s.cmd)
    (hb : t.imuBuf = s.imuBuf) (hw : t.imuWp = s.imuWp) :
    t.payloadFits = s.payloadFits ∧ t.windowOk = s.windowOk := by
  simp only [State.payloadFits, State.windowOk, hp, hc, hb, hw, and_self]

theorem inv_of_microStep {s t : State} (hs : s.Inv) (h : microStep s = .next t) : t.Inv := by
  obtain ⟨hcount, hpay, hwin, hguard, hindex⟩ := hs
  have hframe := microStep_frame h
  obtain ⟨hpay', hwin'⟩ := payload_window_of_frame (s := s) (t := t) (by rw [hframe])
    (by rw [hframe]) (by rw [hframe]) (by rw [hframe])
  exact ⟨countersBounded_of_microStep hcount h, hpay' ▸ hpay, hwin' ▸ hwin,
    guarded_of_microStep hguard h, indexBounded_of_microStep hindex h⟩

theorem inv_of_tick {s t : State} (hs : s.Inv) (h : stepEvent .tick s = .next t) : t.Inv := by
  obtain ⟨-, rfl⟩ | ⟨-, -, rfl⟩ := tick_eq_ok_iff.1 (stepEvent_tick_eq_next_iff.1 h)
  · exact hs
  · obtain ⟨hcount, hrest⟩ := hs
    exact ⟨countersBounded_ticked hcount, hrest⟩

/-- A drawn command is no longer than `MAX_PAYLOAD` (R25, R31). -/
theorem payloadFits_powerOn (s : State) (deltas : PerAxis Word) :
    (s.powerOn deltas).payloadFits = true :=
  Command.fits_iff.2 (List.length_take_le ..)

theorem inv_powerOn (s : State) (deltas : PerAxis Word) : (s.powerOn deltas).Inv := by
  refine ⟨countersBounded_iff.2 fun a => ?_, payloadFits_powerOn s deltas,
    s.windowOk_powerOn deltas, guarded_of_idle rfl, indexBounded_of_idle rfl⟩
  rw [State.axis_powerOn]
  exact Nat.zero_le _

/-- Every event keeps the invariant. -/
theorem inv_of_stepEvent {e : Event} {s t : State} (hs : s.Inv) (h : stepEvent e s = .next t) :
    t.Inv := by
  cases e with
  | reset deltas => cases h; exact inv_powerOn s deltas
  | submit c =>
    obtain ⟨-, hfits, rfl⟩ := submitStep_cases h
    obtain ⟨hcount, -, hwin, -, -⟩ := hs
    exact ⟨hcount, hfits, hwin, rfl, rfl⟩
  | micro => exact inv_of_microStep hs h
  | run => exact runStep_keeps_of_microStep_keeps (fun _ _ => inv_of_microStep) hs h
  | tick => exact inv_of_tick hs h
  | imuSample f =>
    obtain ⟨-, rfl⟩ := sampleStep_cases h
    obtain ⟨hcount, hpay, hwin, hguard, hindex⟩ := hs
    exact ⟨hcount, hpay, s.windowOk_imuSample f hwin, hguard, hindex⟩

/-- Settles O54: taking the next event off the schedule, or drawing it, touches nothing the invariant
speaks of, and every event keeps it. -/
theorem stepKeepsInvariant : Obligations.StepKeepsInvariant := by
  intro s t hs h
  refine inv_of_stepEvent ?_ h
  rw [State.nextEvent_frame]
  exact hs

/-! ## A host that keeps duty H1 (R180) -/

/-- The parts of `zeroFree`. -/
theorem zeroFree_iff {s : State} :
    s.zeroFree = true ↔ (∀ a, (s.axis a).targetFreq ≠ 0#16) ∧ s.pendingZeroFree = true := by
  simp [State.zeroFree]

theorem zeroFree_guardedOps {op : Axis → List MicroOp} (h : ∀ a, (op a).all MicroOp.zeroFree = true)
    (mask : Byte) : (guardedOps mask op).all MicroOp.zeroFree = true := by
  simp only [guardedOps, List.all_cons, List.all_append, List.all_flatMap, List.all_nil]
  simp only [MicroOp.zeroFree, Bool.true_and, Bool.and_true, List.all_eq_true] at h ⊢
  exact fun a _ => h a

/-- A command that sends no rate 0 has no micro-step that brings one. -/
theorem zeroFree_bodyOf {i : Instr} (h : i.sendsZeroFreq = false) :
    (bodyOf i).ops.all MicroOp.zeroFree = true := by
  cases i with
  | setTargetFreq m f d =>
    have hf : (f != 0) = true := by simpa [Instr.sendsZeroFreq] using h
    refine zeroFree_guardedOps (fun a => ?_) m
    simpa [setTargetFreqWrites, MicroOp.zeroFree] using hf
  | setTargetDelta m f t =>
    have hf : (f != 0) = true := by simpa [Instr.sendsZeroFreq] using h
    exact zeroFree_guardedOps (fun a => by simpa [MicroOp.zeroFree] using hf) m
  | getDeltaSteps m => exact zeroFree_guardedOps (fun _ => rfl) m
  | setDeltaSteps m v => exact zeroFree_guardedOps (fun _ => rfl) m
  | getImuMeasurement | setIsrFreq | enableCnc | disableCnc | getIsrFreq => rfl

/-- The writes a micro-step decides on bring no rate 0 where it brings none: they write its own rate or
65535 (R82). -/
theorem zeroFree_follow {op : MicroOp} (h : op.zeroFree = true) (s : State) :
    ((op.follow s).map MicroOp.write).all MicroOp.zeroFree = true := by
  cases op with
  | readTarget a f t =>
    rw [MicroOp.follow, setTargetDeltaWrites]
    split
    · rfl
    · simpa [MicroOp.zeroFree] using h
  | acquire | release | write | respondDelta | respondRate | respondImu => rfl

theorem zeroFree_of_microStep {s t : State} (hs : s.zeroFree = true) (h : microStep s = .next t) :
    t.zeroFree = true := by
  obtain ⟨hfreq, hpending⟩ := zeroFree_iff.1 hs
  refine zeroFree_iff.2 ⟨fun a => ?_, ?_⟩
  · obtain haxes | ⟨k, w, ops, fin, hd, haxes⟩ := microStep_axes h
    · rw [State.axis_of_axes_eq haxes]; exact hfreq a
    · rw [State.axis_of_axes_eq haxes]
      obtain hkeep | ⟨f, rfl, hwrite⟩ := w.apply_targetFreq s a
      · rw [hkeep]; exact hfreq a
      · rw [hwrite]
        have : (f != 0) = true := by
          simp only [State.pendingZeroFree, hd, List.all_cons, Bool.and_eq_true] at hpending
          exact hpending.1
        simpa using this
  · obtain ⟨hd, rfl⟩ | ⟨k, fin, -, rfl⟩ | ⟨k, op, ops, fin, hd, rfl⟩ := microStep_cases h
    · unfold decodeStep
      split
      · rfl
      · rename_i i hdec
        simp only [State.pendingZeroFree, hd, Command.honoursH1] at hpending
        rw [show decode s.params.cmdIds s.cmd = .ok i from hdec] at hpending
        exact zeroFree_bodyOf (by simpa using hpending)
    · simp only [State.pendingZeroFree, State.complete_disp]
    · simp only [State.pendingZeroFree, hd, List.all_cons, Bool.and_eq_true] at hpending
      obtain ⟨hop, hops⟩ := hpending
      simp only [State.pendingZeroFree, State.setDisp_disp, List.all_append, Bool.and_eq_true]
      exact ⟨zeroFree_follow hop s, hops⟩

theorem zeroFree_ticked {s : State} (hs : s.zeroFree = true) : s.ticked.zeroFree = true := by
  obtain ⟨hfreq, hpending⟩ := zeroFree_iff.1 hs
  refine zeroFree_iff.2 ⟨fun a => ?_, hpending⟩
  rw [State.axis_ticked]
  obtain hkeep | hstop := (s.axis a).ticked_targetFreq s.tickRate
  · rw [hkeep]; exact hfreq a
  · rw [hstop]; decide

/-- Every event that keeps duty H1 keeps the absence of the rate 0. -/
theorem zeroFree_of_stepEvent {e : Event} {s t : State} (hs : s.zeroFree = true)
    (he : e.honoursH1 s.params.cmdIds = true) (h : stepEvent e s = .next t) : t.zeroFree = true := by
  cases e with
  | reset deltas =>
    cases h
    refine zeroFree_iff.2 ⟨fun a => ?_, rfl⟩
    rw [State.axis_powerOn]
    exact (by decide : inactiveFreq ≠ 0#16)
  | submit c =>
    obtain ⟨-, -, rfl⟩ := submitStep_cases h
    exact zeroFree_iff.2 ⟨(zeroFree_iff.1 hs).1, he⟩
  | micro => exact zeroFree_of_microStep hs h
  | run =>
    exact runStep_keeps_of_microStep_keeps (P := fun u => u.zeroFree = true)
      (fun _ _ => zeroFree_of_microStep) hs h
  | tick =>
    obtain ⟨-, rfl⟩ | ⟨-, -, rfl⟩ := tick_eq_ok_iff.1 (stepEvent_tick_eq_next_iff.1 h)
    · exact hs
    · exact zeroFree_ticked hs
  | imuSample f =>
    obtain ⟨-, rfl⟩ := sampleStep_cases h
    exact hs

/-- A step divides by 0 only at an axis with the rate 0 (R102). -/
theorem exists_zero_of_divideByZero {e : Event} {s : State}
    (h : stepEvent e s = .fault .divideByZero) : ∃ a, (s.axis a).targetFreq = 0#16 := by
  obtain ⟨t, ht⟩ | ⟨f, hf, htick⟩ := stepEvent_next_or_fault e s
  · cases ht.symm.trans h
  · cases hf.symm.trans h
    obtain rfl := htick rfl
    obtain ⟨a, ha⟩ := exists_axisFault_of_tick_error (stepEvent_tick_eq_fault_iff.1 h)
    exact ⟨a, AxisState.zero_of_tickFault ha⟩

/-- Settles O55. -/
theorem dutifulHostNeverDividesByZero : Obligations.DutifulHostNeverDividesByZero := by
  intro s e es hs hsched he
  rw [step_scheduled hsched]
  have hs' : ({ s with schedule := es } : State).zeroFree = true := hs
  refine ⟨fun h => ?_, fun t h => zeroFree_of_stepEvent hs' he h⟩
  obtain ⟨a, ha⟩ := exists_zero_of_divideByZero h
  exact (zeroFree_iff.1 hs').1 a ha

end Sys2Proof.Machine
end

section
/-! Atomicity of a command to `tick` (R47, R48, R51): the ticks before the micro-step that a tick can see
go before the command, the ticks after it behind the command. For a guarded command that micro-step is the
whole bracket, in which a tick changes nothing. -/

namespace Sys2Proof.Machine

/-! ## Operations that a tick does not see -/

/-- The operation writes nothing a tick reads and reads nothing a tick writes. -/
structure UnseenByTick (φ : State → State) : Prop where
  isrSuspended : ∀ s, (φ s).isrSuspended = s.isrSuspended
  axisFault : ∀ s a, (φ s).axisFault a = s.axisFault a
  ticked : ∀ s, (φ s).ticked = φ s.ticked

namespace UnseenByTick

variable {φ ψ : State → State}

theorem comp (hφ : UnseenByTick φ) (hψ : UnseenByTick ψ) : UnseenByTick (φ ∘ ψ) where
  isrSuspended s := (hφ.isrSuspended _).trans (hψ.isrSuspended s)
  axisFault s a := (hφ.axisFault _ a).trans (hψ.axisFault s a)
  ticked s := (hφ.ticked _).trans (congrArg φ (hψ.ticked s))

/-- A tick after the operation is the operation after a tick. -/
theorem stepEvent_iff (hφ : UnseenByTick φ) {s v : State} :
    stepEvent .tick (φ s) = .next v ↔ ∃ u, stepEvent .tick s = .next u ∧ v = φ u := by
  simp only [stepEvent_tick_eq_next_iff, tick_eq_ok_iff, hφ.isrSuspended, hφ.axisFault, hφ.ticked]
  constructor
  · rintro (⟨hs, rfl⟩ | ⟨hs, hf, rfl⟩)
    · exact ⟨s, .inl ⟨hs, rfl⟩, rfl⟩
    · exact ⟨_, .inr ⟨hs, hf, rfl⟩, rfl⟩
  · rintro ⟨u, ⟨hs, rfl⟩ | ⟨hs, hf, rfl⟩, rfl⟩
    · exact .inl ⟨hs, rfl⟩
    · exact .inr ⟨hs, hf, rfl⟩

/-- Any number of ticks after the operation is the operation after them. -/
theorem runTicks_iff (hφ : UnseenByTick φ) {n : Nat} {s v : State} :
    runEvents (List.replicate n .tick) (φ s) = .next v ↔
      ∃ u, runEvents (List.replicate n .tick) s = .next u ∧ v = φ u := by
  induction n generalizing s with
  | zero => simp [runEvents, eq_comm]
  | succ n ih =>
    simp only [List.replicate_succ, runEvents_cons_iff, hφ.stepEvent_iff]
    constructor
    · rintro ⟨_, ⟨u, hu, rfl⟩, hrun⟩
      obtain ⟨w, hw, rfl⟩ := ih.1 hrun
      exact ⟨w, ⟨u, hu, hw⟩, rfl⟩
    · rintro ⟨w, ⟨u, hu, hw⟩, rfl⟩
      exact ⟨_, ⟨u, hu, rfl⟩, ih.2 ⟨w, hw, rfl⟩⟩

end UnseenByTick

theorem State.unseen_setDisp (d : Disp) : UnseenByTick (State.setDisp · d) :=
  ⟨fun _ => rfl, fun _ _ => rfl, fun _ => rfl⟩

theorem State.unseen_respond (ok : Bool) (len : RespLen) : UnseenByTick (State.respond · ok len) :=
  ⟨fun _ => rfl, fun _ _ => rfl, fun _ => rfl⟩

/-- A tick changes nothing that `bytes` reads, so it does not see them written to the response. -/
theorem State.unseen_writeResp {bytes : State → List Byte} (h : ∀ s, bytes s.ticked = bytes s) :
    UnseenByTick fun s => s.writeResp 0 (bytes s) where
  isrSuspended s := s.writeResp_isrSuspended 0 (bytes s)
  axisFault s a := by generalize bytes s = bs; rfl
  ticked s := by rw [h]; generalize bytes s = bs; rfl

theorem State.unseen_drawResponse : UnseenByTick State.drawResponse := by
  have hdraws : UnseenByTick fun s => { s with draws := s.draws + 1 } :=
    ⟨fun _ => rfl, fun _ _ => rfl, fun _ => rfl⟩
  exact hdraws.comp
    (State.unseen_writeResp (bytes := fun s => wordBytes (Config.freeWord s.draws 0)) fun _ => rfl)

theorem State.unseen_complete (fin : Finish) : UnseenByTick (State.complete · fin) := by
  obtain ⟨len, unspecified⟩ := fin
  cases unspecified with
  | false => exact State.unseen_respond true len
  | true => exact (State.unseen_respond true len).comp State.unseen_drawResponse

/-- The micro-steps a tick does not see: the write of the shield, and the answers of the two queries
that read no axis. -/
def MicroOp.quiet : MicroOp → Bool
  | .write (.shieldEnabled _) => true
  | .respondRate => true
  | .respondImu => true
  | _ => false

theorem MicroOp.onAxis_of_quiet {op : MicroOp} (h : op.quiet = true) : op.onAxis = false := by
  cases op with
  | write w =>
    cases w with
    | shieldEnabled | tickRate | isrSuspended => rfl
    | controlMode | targetFreq | direction | targetDelta | clearCounter | deltaSteps => cases h
  | acquire | release | respondRate | respondImu => rfl
  | readTarget | respondDelta => cases h

theorem MicroOp.unseen_of_quiet {op : MicroOp} (h : op.quiet = true) : UnseenByTick op.apply := by
  cases op with
  | write w =>
    cases w with
    | shieldEnabled b => exact ⟨fun _ => rfl, fun _ _ => rfl, fun _ => rfl⟩
    | controlMode | targetFreq | direction | targetDelta | clearCounter | deltaSteps | tickRate
    | isrSuspended => cases h
  | respondRate => exact State.unseen_writeResp (bytes := (rateResponse ·.getTickRate)) fun _ => rfl
  | respondImu => exact State.unseen_writeResp (bytes := (imuResponse ·.imuAvg)) fun _ => rfl
  | acquire | release | readTarget | respondDelta => cases h

/-! ## The rest of a command at once -/

/-- The state after the micro-steps still to take and `COMPLETE`, no tick between them. -/
def State.finish (s : State) (ops : List MicroOp) (fin : Finish) : State :=
  (runOps ops s).complete fin

theorem State.finish_setDisp (s : State) (d : Disp) (ops : List MicroOp) (fin : Finish) :
    (s.setDisp d).finish ops fin = s.finish ops fin := by
  rw [State.finish, runOps_setDisp, State.complete_setDisp, State.finish]

/-- A micro-step taken first leaves the rest. -/
theorem State.finish_step (s : State) (d : Disp) (op : MicroOp) (ops : List MicroOp) (fin : Finish) :
    ((op.apply s).setDisp d).finish ((op.follow s).map MicroOp.write ++ ops) fin =
      s.finish (op :: ops) fin := by
  rw [State.finish_setDisp, State.finish, runOps_step, State.finish]

theorem State.finish_quiet (s : State) {op : MicroOp} (h : op.quiet = true) (ops : List MicroOp)
    (fin : Finish) : s.finish (op :: ops) fin = (op.apply s).finish ops fin := by
  have hstep := s.finish_step .idle op ops fin
  rw [follow_eq_nil (MicroOp.onAxis_of_quiet h), State.finish_setDisp] at hstep
  exact hstep.symm

/-- The rest of a command of quiet micro-steps only is one operation that a tick does not see. -/
theorem State.unseen_finish {ops : List MicroOp} (h : ops.all MicroOp.quiet = true) (fin : Finish) :
    UnseenByTick (State.finish · ops fin) := by
  induction ops with
  | nil => exact State.unseen_complete fin
  | cons op ops ih =>
    obtain ⟨hop, hops⟩ := Bool.and_eq_true_iff.1 h
    have heq : (State.finish · (op :: ops) fin) = (State.finish · ops fin) ∘ op.apply :=
      funext fun s => s.finish_quiet hop ops fin
    rw [heq]
    exact (ih hops).comp (MicroOp.unseen_of_quiet hop)

/-! ## Interleavings -/

/-- Micro-steps and ticks in any order. -/
def Interleaving (es : List Event) : Prop := ∀ e ∈ es, e = .micro ∨ e = .tick

theorem Interleaving.cons {e : Event} {es : List Event} (h : Interleaving (e :: es)) :
    (e = .micro ∨ e = .tick) ∧ Interleaving es := List.forall_mem_cons.1 h

theorem stepEvent_tick_frame {s t : State} (h : stepEvent .tick s = .next t) :
    t.disp = s.disp ∧ t.cmd = s.cmd ∧ t.params = s.params := by
  rw [(tickWritesOnlyAxesAndOutputs s t h).1]
  exact ⟨rfl, rfl, rfl⟩

/-- Once the dispatcher is idle no micro-step is taken: what follows are ticks. -/
theorem runTicks_of_idle {es : List Event} (hes : Interleaving es) {s t : State}
    (hs : s.disp = .idle) (h : runEvents es s = .next t) :
    runEvents (List.replicate es.length .tick) s = .next t := by
  induction es generalizing s with
  | nil => exact h
  | cons e es ih =>
    obtain ⟨u, hstep, hrest⟩ := runEvents_cons_iff.1 h
    obtain ⟨he, hes'⟩ := hes.cons
    obtain rfl | rfl := he
    · simp [stepEvent, microStep, hs] at hstep
    · exact runEvents_cons_iff.2
        ⟨u, hstep, ih hes' ((stepEvent_tick_frame hstep).1.trans hs) hrest⟩

/-- A command that ends takes a micro-step; before the first one there are ticks only. -/
theorem exists_first_micro {es : List Event} (hes : Interleaving es) {s t : State}
    (hs : s.disp ≠ .idle) (ht : t.disp = .idle) (h : runEvents es s = .next t) :
    ∃ n rest u v, n + rest.length + 1 = es.length ∧ Interleaving rest ∧
      runEvents (List.replicate n .tick) s = .next u ∧
      (u.disp = s.disp ∧ u.cmd = s.cmd ∧ u.params = s.params) ∧
      microStep u = .next v ∧ runEvents rest v = .next t := by
  induction es generalizing s with
  | nil => cases h; exact absurd ht hs
  | cons e es ih =>
    obtain ⟨w, hstep, hrest⟩ := runEvents_cons_iff.1 h
    obtain ⟨he, hes'⟩ := hes.cons
    obtain rfl | rfl := he
    · exact ⟨0, es, s, w, by simp, hes', rfl, ⟨rfl, rfl, rfl⟩, hstep, hrest⟩
    · obtain ⟨hd, hc, hp⟩ := stepEvent_tick_frame hstep
      obtain ⟨n, rest, u, v, hlen, hrest', hticks, hkeep, hmicro, hrun⟩ := ih hes' (hd ▸ hs) hrest
      rw [hd, hc, hp] at hkeep
      exact ⟨n + 1, rest, u, v, by simp; omega, hrest', runEvents_cons_iff.2 ⟨w, hstep, hticks⟩, hkeep,
        hmicro, hrun⟩

/-- From these micro-steps on, in every state with `P`, all ticks may as well come behind the
command. -/
def TicksGoBehind (P : State → Prop) (ops : List MicroOp) : Prop :=
  ∀ ⦃es : List Event⦄ ⦃s t : State⦄ ⦃k : Nat⦄ ⦃fin : Finish⦄, Interleaving es → P s →
    s.disp = .busy k ops fin → runEvents es s = .next t → t.disp = .idle →
    ∃ m ≤ es.length, runEvents (List.replicate m .tick) (s.finish ops fin) = .next t

/-- From these micro-steps on, all ticks may as well come before the rest of the command or behind
it. -/
def TicksGoAround (ops : List MicroOp) : Prop :=
  ∀ ⦃es : List Event⦄ ⦃s t : State⦄ ⦃k : Nat⦄ ⦃fin : Finish⦄, Interleaving es →
    s.disp = .busy k ops fin → runEvents es s = .next t → t.disp = .idle →
    ∃ n m u, n + m ≤ es.length ∧ runEvents (List.replicate n .tick) s = .next u ∧
      runEvents (List.replicate m .tick) (u.finish ops fin) = .next t

theorem TicksGoBehind.around {ops : List MicroOp} (h : TicksGoBehind (fun _ => True) ops) :
    TicksGoAround ops := by
  intro es s t k fin hes hd hrun ht
  obtain ⟨m, hm, hticks⟩ := h hes trivial hd hrun ht
  exact ⟨0, m, s, by omega, rfl, hticks⟩

/-- A tick sees no quiet micro-step, so it may as well come behind them all. -/
theorem ticksGoBehind_of_quiet {ops : List MicroOp} (h : ops.all MicroOp.quiet = true) :
    TicksGoBehind (fun _ => True) ops := by
  induction ops with
  | nil =>
    intro es s t k fin hes _ hd hrun ht
    obtain ⟨n, rest, u, v, hlen, hrest, hticks, ⟨hdu, -⟩, hmicro, hrun⟩ :=
      exists_first_micro hes (by rw [hd]; exact nofun) ht hrun
    cases (microStep_of_done (hdu.trans hd)).symm.trans hmicro
    have hafter := runTicks_of_idle hrest (State.complete_disp ..) hrun
    have hbefore := (State.unseen_finish (ops := []) rfl fin).runTicks_iff.2 ⟨u, hticks, rfl⟩
    refine ⟨n + rest.length, by omega, ?_⟩
    rw [List.replicate_add, runEvents_append hbefore]
    exact hafter
  | cons op ops ih =>
    obtain ⟨hop, hops⟩ := Bool.and_eq_true_iff.1 h
    intro es s t k fin hes _ hd hrun ht
    obtain ⟨n, rest, u, v, hlen, hrest, hticks, ⟨hdu, -⟩, hmicro, hrun⟩ :=
      exists_first_micro hes (by rw [hd]; exact nofun) ht hrun
    cases (microStep_of_op (hdu.trans hd)).symm.trans hmicro
    rw [follow_eq_nil (MicroOp.onAxis_of_quiet hop)] at hrun
    obtain ⟨m, hm, hafter⟩ := ih hops hrest trivial rfl hrun ht
    rw [List.map_nil, List.nil_append, State.finish_setDisp, ← State.finish_quiet u hop] at hafter
    have hbefore := (State.unseen_finish h fin).runTicks_iff.2 ⟨u, hticks, rfl⟩
    refine ⟨n + m, by omega, ?_⟩
    rw [List.replicate_add, runEvents_append hbefore]
    exact hafter

/-- Inside the bracket the guard is held and a tick changes nothing; behind `RELEASE` only `COMPLETE` is
left. -/
theorem ticksGoBehind_of_held {ops : List MicroOp} (h : ops.all MicroOp.onAxis = true) :
    TicksGoBehind (fun s => s.isrSuspended = true) (ops ++ [.release]) := by
  intro es s t k fin hes hs hd hrun ht
  induction es generalizing s k ops with
  | nil => cases hrun; rw [hd] at ht; cases ht
  | cons e es ih =>
    obtain ⟨u, hstep, hrest⟩ := runEvents_cons_iff.1 hrun
    obtain ⟨he, hes'⟩ := hes.cons
    obtain rfl | rfl := he
    · cases ops with
      | nil =>
        cases (microStep_of_op (op := .release) (ops := []) hd).symm.trans hstep
        obtain ⟨m, hm, hafter⟩ :=
          ticksGoBehind_of_quiet (ops := []) rfl hes' trivial rfl hrest ht
        exact ⟨m, by simp; omega, (congrArg _ (s.finish_step ..).symm).trans hafter⟩
      | cons op ops =>
        obtain ⟨hop, hops⟩ := Bool.and_eq_true_iff.1 h
        cases (microStep_of_op (ops := ops ++ [.release]) hd).symm.trans hstep
        have hall : ((op.follow s).map MicroOp.write ++ ops).all MicroOp.onAxis = true := by
          rw [List.all_append, follow_onAxis, hops]; rfl
        rw [← List.append_assoc] at hrest
        have hheld (d : Disp) : ((op.apply s).setDisp d).isrSuspended = true :=
          (apply_isrSuspended hop s).trans hs
        obtain ⟨m, hm, hafter⟩ := ih hall hes' (hheld _) rfl hrest
        rw [List.append_assoc, State.finish_step] at hafter
        exact ⟨m, by simp; omega, hafter⟩
    · cases (stepEvent_tick_of_suspended hs).symm.trans hstep
      obtain ⟨m, hm, hafter⟩ := ih h hes' hs hd hrest
      exact ⟨m, by simp; omega, hafter⟩

/-- A micro-step after which all ticks go behind: those before it go before the command. -/
theorem ticksGoAround_of_behind {P : State → Prop} {op : MicroOp} {ops : List MicroOp}
    (hop : op.onAxis = false) (hP : ∀ s d, P ((op.apply s).setDisp d)) (h : TicksGoBehind P ops) :
    TicksGoAround (op :: ops) := by
  intro es s t k fin hes hd hrun ht
  obtain ⟨n, rest, u, v, hlen, hrest, hticks, ⟨hdu, -⟩, hmicro, hrun⟩ :=
    exists_first_micro hes (by rw [hd]; exact nofun) ht hrun
  cases (microStep_of_op (hdu.trans hd)).symm.trans hmicro
  obtain ⟨m, hm, hafter⟩ := h hrest (hP u _) (by rw [follow_eq_nil hop]; rfl) hrun ht
  have hfinish := u.finish_step .idle op ops fin
  rw [follow_eq_nil hop, State.finish_setDisp] at hfinish
  rw [State.finish_setDisp] at hafter
  exact ⟨n, m, u, by omega, hticks, hfinish ▸ hafter⟩

/-- A quiet micro-step may as well come behind the ticks that follow it. -/
theorem ticksGoAround_of_quiet {op : MicroOp} {ops : List MicroOp} (hop : op.quiet = true)
    (h : TicksGoAround ops) : TicksGoAround (op :: ops) := by
  intro es s t k fin hes hd hrun ht
  obtain ⟨n, rest, u, v, hlen, hrest, hticks, ⟨hdu, -⟩, hmicro, hrun⟩ :=
    exists_first_micro hes (by rw [hd]; exact nofun) ht hrun
  cases (microStep_of_op (hdu.trans hd)).symm.trans hmicro
  obtain ⟨n', m, w, hnm, hbefore, hafter⟩ :=
    h hrest (by rw [follow_eq_nil (MicroOp.onAxis_of_quiet hop)]; rfl) hrun ht
  obtain ⟨x, hx, rfl⟩ := ((State.unseen_setDisp _).comp (MicroOp.unseen_of_quiet hop)).runTicks_iff.1
    hbefore
  refine ⟨n + n', m, x, by omega, ?_, ?_⟩
  · rw [List.replicate_add, runEvents_append hticks]
    exact hx
  · rw [State.finish_quiet x hop]
    exact (congrArg _ (State.finish_setDisp ..).symm).trans hafter

/-! ## Every command -/

theorem ticksGoAround_guardedOps {op : Axis → List MicroOp}
    (h : ∀ a, (op a).all MicroOp.onAxis = true) (mask : Byte) :
    TicksGoAround (guardedOps mask op) := by
  have hloop : ((selectedAxes mask).flatMap op).all MicroOp.onAxis = true := by
    simp only [List.all_flatMap, List.all_eq_true] at h ⊢
    exact fun a _ => h a
  exact ticksGoAround_of_behind rfl (fun _ _ => rfl) (ticksGoBehind_of_held hloop)

theorem ticksGoAround_bodyOf (i : Instr) : TicksGoAround (bodyOf i).ops := by
  have hlast {op : MicroOp} {ops : List MicroOp} (hop : op.onAxis = false)
      (hops : ops.all MicroOp.quiet = true) : TicksGoAround (op :: ops) :=
    ticksGoAround_of_behind hop (fun _ _ => trivial) (ticksGoBehind_of_quiet hops)
  cases i with
  | setTargetFreq m f d => exact ticksGoAround_guardedOps (fun _ => rfl) m
  | setTargetDelta m f t => exact ticksGoAround_guardedOps (fun _ => rfl) m
  | getDeltaSteps m => exact ticksGoAround_guardedOps (fun _ => rfl) m
  | setDeltaSteps m v => exact ticksGoAround_guardedOps (fun _ => rfl) m
  | getImuMeasurement | getIsrFreq => exact (ticksGoBehind_of_quiet rfl).around
  | setIsrFreq f => exact hlast rfl rfl
  | enableCnc => exact ticksGoAround_of_quiet rfl (hlast rfl rfl)
  | disableCnc => exact hlast rfl rfl

/-- Settles O53: `DECODE` is unseen by ticks, and from behind it all ticks go around the body. -/
theorem commandsAreAtomicToTicks : Obligations.CommandsAreAtomicToTicks := by
  intro s t es hd hes hrun ht
  obtain ⟨n, rest, u, v, hlen, hrest, hticks, ⟨hdu, -, -⟩, hmicro, hrun⟩ :=
    exists_first_micro hes (by rw [hd]; exact nofun) ht hrun
  have hdu := hdu.trans hd
  cases hdec : u.decoded with
  | error e =>
    obtain ⟨hfail, hfail'⟩ := failedCommandWritesOnlyResponse u e hdu hdec
    cases hfail.symm.trans hmicro
    refine ⟨n, rest.length, by omega, ?_⟩
    rw [runEvents_append hticks, runEvents_cons hfail']
    exact runTicks_of_idle hrest rfl hrun
  | ok i =>
    cases (microStep_of_decoded hdu hdec).symm.trans hmicro
    obtain ⟨n', m, w, hnm, hbefore, hafter⟩ := ticksGoAround_bodyOf i hrest rfl hrun ht
    obtain ⟨x, hx, rfl⟩ := (State.unseen_setDisp _).runTicks_iff.1 hbefore
    have hbefore' : runEvents (List.replicate (n + n') .tick) s = .next x := by
      rw [List.replicate_add, runEvents_append hticks]
      exact hx
    have hstart : x.disp = .busy0 ∧ x.decoded = .ok i := by
      refine invariant_replicate (e := .tick) (P := fun y => y.disp = .busy0 ∧ y.decoded = .ok i)
        (fun y z hy hstep => ?_) ⟨hdu, hdec⟩ hx
      obtain ⟨hdisp, hcmd, hparams⟩ := stepEvent_tick_frame hstep
      simp only [State.decoded, hdisp, hcmd, hparams]
      exact hy
    have hexec : stepEvent .run x = .next (x.finish (bodyOf i).ops (bodyOf i).fin) :=
      (runStep_of_decoded hstart.1 hstart.2).trans (exec_eq i x)
    refine ⟨n + n', m, by omega, ?_⟩
    rw [runEvents_append hbefore', runEvents_cons hexec]
    rwa [State.finish_setDisp] at hafter

end Sys2Proof.Machine
end
